-- ==== Sys2Proof/Machine/Params.lean ====
section
/-! DEFINITION. The fixed constants of R10, each literal once (R5: they are unaudited). Every width, length and default of the model is one of these names or is computed from one. -/

namespace Sys2Proof.Config

/-- `W` of R10: bits of a ChannelWord, one per channel. -/
abbrev channelWidth : Nat := 8

/-- `IDXW` of R10: bits of the buffer index. -/
abbrev indexWidth : Nat := 8

/-- `N` of R10: entries of the capture buffer; the index wraps modulo `N` (R31), so `N` is what its width counts. -/
abbrev bufferEntries : Nat := 2 ^ indexWidth

/-- `ARGB` of R10: argument bytes of a long frame. -/
abbrev argBytes : Nat := 4

/-- Bits of the argument: eight for each of its bytes (R91). -/
abbrev argWidth : Nat := 8 * argBytes

/-- `CW` of R10: bits of a rate counter. -/
abbrev counterWidth : Nat := 32

/-- `IDLEN` of R10: bytes of the QUERY_ID response. -/
def idLength : Nat := 4

/-- `METALEN` of R10: bytes of the GET_METADATA response. -/
def metadataLength : Nat := 37

/-- `TAILN` of R10: entries in the telemetry tail. -/
def tailEntries : Nat := 5

/-- `PERIOD_TICKS` of R10: telemetry ticks per counter reset. -/
def periodTicks : Nat := 5

/-- `ENABLE_DEFAULT` of R10. -/
def enableDefault : BitVec channelWidth := 0xFF#channelWidth

/-- `INVERT_DEFAULT` of R10. -/
def invertDefault : BitVec channelWidth := 0x00#channelWidth

/-- `TICK_MS` of R10: nominal tick interval; timing only, no rule reads it (R299). -/
def tickMs : Nat := 200

/-- The period between counter resets, nominally 1 s (R17 "period"); timing only, no rule reads it. -/
def periodMs : Nat := periodTicks * tickMs

/-- The default R11 takes for the open parameter `RESET_CLEARS_CAPTURE`, as 90_conflicts.md C1 decides (log entry 2). -/
def resetClearsCaptureDefault : Bool := false

end Sys2Proof.Config
end

