-- ==== Sys2Proof/Word.lean ====
section
/-! DEFINITION. The word types of the capture core: every value of the spec is an unsigned bit vector (R14), bit 0 the least significant (R13). The widths are the constants of R10 (Machine/Params.lean). -/

namespace Sys2Proof

/-- One byte of a stream: an opcode, an argument byte, a byte of a response (R14 `u8`). -/
abbrev Byte := BitVec 8

/-- A ChannelWord, and a mask with one bit per channel: bit i belongs to channel i (R13, R17, R34, R35). -/
abbrev ChannelWord := BitVec Config.channelWidth

/-- An index into the capture buffer; its arithmetic wraps (R31). -/
abbrev Index := BitVec Config.indexWidth

/-- The argument of a long frame (R91, R93). -/
abbrev Word := BitVec Config.argWidth

/-- A rate counter; its increment wraps (R37, R38). -/
abbrev Count := BitVec Config.counterWidth

end Sys2Proof
end

