-- ==== Sys2Proof/Machine/Ports.lean ====
section
/-! DEFINITION. The input port of one iteration: the input record `I = (raw, rx, tick, keys)` of R44. -/

namespace Sys2Proof.Machine

/-- A key event as the input collaborator delivers it (R48). -/
inductive KeyEvent where
  /-- TOGGLE: flip the session flag (R203). -/
  | toggle
  /-- QUIT: end the run after this iteration (R204). -/
  | quit
  /-- OTHER(k): any other key, with its code; ignored (R205). -/
  | other (code : Nat)
  deriving DecidableEq, Repr, Inhabited

/-- What the environment hands the core for one iteration (R44 to R48). Every field is free. -/
structure Input where
  /-- The raw ChannelWord (R45); no bit of it is constrained, bit 5 included (R120). -/
  raw : ChannelWord
  /-- The inbound chunk; `none` when the command-processing gate did not fire (R46). -/
  rx : Option (List Byte)
  /-- Whether the 200 ms telemetry gate fires in this iteration (R47). -/
  tick : Bool
  /-- The key events drained in this iteration, in delivery order (R48). -/
  keys : List KeyEvent
  deriving DecidableEq, Repr, Inhabited

end Sys2Proof.Machine
end

