-- ==== Sys2Proof/Syntax.lean ====
section
/-! DEFINITION. The commands of the host protocol: the fourteen mnemonics of R97, and one constructor of `Instr` per row of the opcode table. -/

namespace Sys2Proof

/-- The fourteen recognised mnemonics (R97): the domain of `OPCODE_MAP` (R11). -/
inductive Mnemonic where
  | reset | arm | queryId | selfTest | getMetadata | finishNow | xon | xoff
  | setDivider | setReadDelayCount | setFlags
  | triggerMask | triggerValues | triggerConfig
  deriving DecidableEq, Repr, Inhabited

/-- A command as DISPATCH receives it: the mnemonic and the argument of its frame (R170).
Which frame format a mnemonic has follows from bit 7 of the byte `OPCODE_MAP` gives it (R92, R98), so a command that
never reads its argument carries `none` (short frame) or `some a` (long frame, `a` discarded); `Instr.wfWith` says which.
TRIGGER_MASK and TRIGGER_VALUES read their argument and always have one (R92). -/
inductive Instr where
  /-- RESET (R171). -/
  | reset (arg : Option Word)
  /-- ARM (R173). -/
  | arm (arg : Option Word)
  /-- QUERY_ID (R176). -/
  | queryId (arg : Option Word)
  /-- SELF_TEST (R184). -/
  | selfTest (arg : Option Word)
  /-- GET_METADATA (R177). -/
  | getMetadata (arg : Option Word)
  /-- FINISH_NOW (R172). -/
  | finishNow (arg : Option Word)
  /-- XON (R178). -/
  | xon (arg : Option Word)
  /-- XOFF (R179). -/
  | xoff (arg : Option Word)
  /-- SET_DIVIDER (R180). -/
  | setDivider (arg : Option Word)
  /-- SET_READ_DELAY_COUNT (R182). -/
  | setReadDelayCount (arg : Option Word)
  /-- SET_FLAGS (R183). -/
  | setFlags (arg : Option Word)
  /-- TRIGGER_MASK a (R174). -/
  | triggerMask (a : Word)
  /-- TRIGGER_VALUES a (R175). -/
  | triggerValues (a : Word)
  /-- TRIGGER_CONFIG (R181). -/
  | triggerConfig (arg : Option Word)
  /-- UNKNOWN(op) as a short frame: the opcode byte is outside the map and its bit 7 is clear (R185). -/
  | unknown (op : Byte)
  /-- UNKNOWN(op) as a long frame: the opcode byte is outside the map and its bit 7 is set; the argument is discarded (R185). -/
  | unknownLong (op : Byte) (a : Word)
  deriving DecidableEq, Repr, Inhabited

end Sys2Proof
end

