-- ==== Sys2Proof/Config.lean ====
section
/-! DEFINITION. The type of `OPCODE_MAP` with the conditions R11 puts on it, and the free values (opaque, no body).
The constants of R10 stand in Machine/Params.lean, the default opcode map in Decode.lean, and `RESET_CLEARS_CAPTURE` is a field of the
state that no step writes (log entry 2). -/

namespace Sys2Proof.Config

/-- The open parameter `OPCODE_MAP` of R11: the opcode byte of each recognised mnemonic. -/
abbrev OpcodeMap := Mnemonic → Byte

/-- What R11 and R92 ask of an opcode map: it is injective, and the two commands that read their argument have bit 7 set. -/
def OpcodeMap.Legal (m : OpcodeMap) : Prop :=
  (∀ a b : Mnemonic, m a = m b → a = b) ∧
    (m .triggerMask).getLsbD 7 = true ∧ (m .triggerValues).getLsbD 7 = true

/-- FREE VALUE (log entry 3). The characters of the open parameter `ID_STRING` (R11, R12): the spec gives no byte of it, only
that it is ASCII, so a character has seven bits. -/
opaque idChar : Nat → BitVec 7

/-- FREE VALUE (log entry 4). The bytes of the open parameter `METADATA` (R11, R177): the spec gives none. -/
opaque metadataByte : Nat → Byte

/-- FREE VALUE (log entry 5). The input record the environment supplies when no record is pending in the state (R44, R233):
the n-th such record. -/
opaque envInput : Nat → Machine.Input

end Sys2Proof.Config
end

