-- ==== Sys2Proof/Machine/State.lean ====
section
/-! DEFINITION. The state of the core: the tuple S of R30, the three output sequences (R49 to R51), the model's own two fields that hold the environment's input records, and the parameter `RESET_CLEARS_CAPTURE`. -/

namespace Sys2Proof.Machine

open Sys2Proof

/-- A diagnostic event (R50). -/
inductive DiagEvent where
  /-- IncompleteArgument(opcode, have): a long frame cut short by the end of its chunk (R251). -/
  | incompleteArgument (op : Byte) (present : Nat)
  /-- UnknownCommand(opcode): a complete frame whose opcode is outside the map (R252). -/
  | unknownCommand (op : Byte)
  deriving DecidableEq, Repr

/-- A telemetry frame: the counts before any reset, and the tail, most recent entry first (R51, R211). -/
structure Frame where
  samples : Count
  changes : Count
  tail : List ChannelWord
  deriving DecidableEq, Repr

/-- The capture buffer's contents as (index, byte) pairs: indexes strictly rising, no entry equal to what an unlisted
index reads as. -/
abbrev Memory := List Host.Cell

/-- Everything the spec gives the core; and the model's own: the environment's pending inputs and the parameter of R11 that a command
reads. -/
structure State where
  /-- `BUF`, the capture buffer (R32). -/
  buf : Memory
  /-- `IDX`, the index of the most recently stored entry (R31). -/
  idx : Index
  /-- `ARMED`, the session flag (R33). -/
  armed : Bool
  /-- `ENABLE_MASK`, the channel enable register (R34). -/
  enableMask : ChannelWord
  /-- `INVERT_MASK`, the channel polarity register (R35). -/
  invertMask : ChannelWord
  /-- `RUNNING`, the loop-continue flag (R36). -/
  running : Bool
  /-- `SAMPLES`, iterations since the last period reset (R37). -/
  samples : Count
  /-- `CHANGES`, transitions since the last period reset (R38). -/
  changes : Count
  /-- `TICKS`, telemetry ticks since the last period reset, 0 to 4 (R39). -/
  ticks : Nat
  /-- `TX`, the outbound host byte sequence (R49). -/
  tx : List Byte
  /-- `DIAG`, the diagnostic event sequence (R50). -/
  diag : List DiagEvent
  /-- `FRAMES`, the telemetry output (R51). -/
  frames : List Frame
  /-- The model's own (log entry 5): input records the environment has set up for the coming iterations, the next one first. -/
  inputs : List Input
  /-- The model's own (log entry 5): how many free input records have been drawn so far. -/
  drawn : Nat
  /-- The open parameter `RESET_CLEARS_CAPTURE` (R11; log entry 2): an argument of every command and step rather than state of the
  core (R30), so no step writes it. -/
  resetClearsCapture : Bool
  deriving DecidableEq, Repr

/-- Why a step stops. -/
inductive Fault where
  /-- Raised by `iterate` alone, when RUNNING is false: the core is halted, which R230 and R234 call the clean end of a run
  and not an error. SAFE (log entry 6): the spec gives a halted core no step, and the model gives none. -/
  | halted
  deriving DecidableEq, Repr

/-- Why an instruction has no meaning. -/
inductive Refusal where
  /-- Raised by an arm of `exec` whose instruction has no meaning yet; no arm does. SAFE: the machine stops. -/
  | notModelled (mnemonic : String)
  deriving DecidableEq, Repr

/-- Power-on reset (R53, R280). -/
def State.reset : State where
  buf := []
  idx := 0#Config.indexWidth
  armed := false
  enableMask := Config.enableDefault
  invertMask := Config.invertDefault
  running := true
  samples := 0#Config.counterWidth
  changes := 0#Config.counterWidth
  ticks := 0
  tx := []
  diag := []
  frames := []
  inputs := []
  drawn := 0
  resetClearsCapture := Config.resetClearsCaptureDefault

end Sys2Proof.Machine
end

