-- ==== Sys2Proof/Machine/Ops.lean ====
section
/-! DEFINITION. The shared operations: reading and writing the capture buffer, the emit primitives of R15, reporting an error kind (the core's whole exception mechanism, R256), the input port, and the restart. -/

namespace Sys2Proof.Machine

open Sys2Proof

/-! ### The capture buffer -/

/-- A ChannelWord as the one byte it is stored and sent as (R60, R126). -/
def wireByte (w : ChannelWord) : Byte := w.setWidth 8

/-- The ChannelWord a byte stands for. -/
def channelWordOf (b : Byte) : ChannelWord := b.setWidth Config.channelWidth

/-- What an unlisted entry reads as: every entry is 0x00 at power-on (R53). -/
def unlisted : Byte := 0x00#8

/-- `MemRead(i, 1)` (R15, R60). -/
def Memory.read : Memory → Nat → Byte
  | [], _ => unlisted
  | (k, v) :: rest, a => if k = a then v else Memory.read rest a

/-- `MemWrite(i, 1, v)` (R15, R60), keeping the canonical form. -/
def Memory.write : Memory → Nat → Byte → Memory
  | [], a, v => if v = unlisted then [] else [(a, v)]
  | (k, w) :: rest, a, v =>
    if a < k then (if v = unlisted then (k, w) :: rest else (a, v) :: (k, w) :: rest)
    else if a = k then (if v = unlisted then rest else (a, v) :: rest)
    else (k, w) :: Memory.write rest a v

/-- The canonical form: indexes strictly rising, every index one of those the spec implements (R60), and no entry equal to
what an unlisted index reads as. -/
abbrev Memory.wf (m : Memory) : Prop :=
  m.Pairwise (fun x y => x.1 < y.1) ∧ ∀ c ∈ m, c.1 < Config.bufferEntries ∧ c.2 ≠ unlisted

/-- `BUF[i]` (R15): reading an entry has no side effect (R68). -/
def State.entry (s : State) (i : Index) : ChannelWord :=
  channelWordOf (Memory.read s.buf i.toNat)

/-- `BUF[i] <- v` (R15). -/
def State.setEntry (s : State) (i : Index) (v : ChannelWord) : State :=
  { s with buf := Memory.write s.buf i.toNat (wireByte v) }

/-- `BUF[IDX]`, the latest stored word. -/
def State.current (s : State) : ChannelWord := s.entry s.idx

/-! ### The output ports -/

/-- `emit_tx(b)` (R15, R49). -/
def State.emitTx (s : State) (b : Byte) : State := { s with tx := s.tx ++ [b] }

/-- `for j: emit_tx(b[j])`: the bytes go out in sequence order (R65). -/
def State.emitTxAll (s : State) (bytes : List Byte) : State := bytes.foldl State.emitTx s

/-- `emit_diag(e)` (R15, R50). -/
def State.emitDiag (s : State) (e : DiagEvent) : State := { s with diag := s.diag ++ [e] }

/-- `emit_frame(f)` (R15, R51). -/
def State.emitFrame (s : State) (f : Frame) : State := { s with frames := s.frames ++ [f] }

/-! ### Error kinds -/

/-- The diagnostic code of an event (R251, R252). -/
def DiagEvent.code : DiagEvent → Nat
  | .incompleteArgument _ _ => 1
  | .unknownCommand _ => 2

/-- `raise <Kind>(info)` (R15, R256): the core has no trap, so raising an error kind appends its diagnostic, saves nothing,
changes no mode and takes no vector. There is no return from it (R257). The local recovery is the caller's. -/
def State.raise (s : State) (e : DiagEvent) : State := s.emitDiag e

/-! ### The input port -/

/-- The input record of the coming iteration: the first pending one, or a free one (R44, log entry 5). -/
def State.nextInput (s : State) : Input :=
  match s.inputs with
  | inp :: _ => inp
  | [] => Config.envInput s.drawn

/-- The state once that record has been taken from the port. -/
def State.consumeInput (s : State) : State :=
  match s.inputs with
  | _ :: rest => { s with inputs := rest }
  | [] => { s with drawn := s.drawn + 1 }

/-! ### Restart and sequencing -/

/-- A restart is the power-on reset (R54, R280): no state of the core survives. What the environment has pending and
the parameter the core is built with are not its state and stay (log entry 12). -/
def State.restart (s : State) : State :=
  { State.reset with inputs := s.inputs, drawn := s.drawn, resetClearsCapture := s.resetClearsCapture }

/-- Run `f` on the next state; a stop stays a stop. -/
def andThen (o : Host.Outcome State Fault Refusal) (f : State → Host.Outcome State Fault Refusal) :
    Host.Outcome State Fault Refusal :=
  match o with
  | .next s => f s
  | .fault r => .fault r
  | .refused r => .refused r

end Sys2Proof.Machine
end

