-- ==== Sys2Proof/Machine/Capture.lean ====
section
/-! DEFINITION. The capture path: FILTER, RECORD, COUNT_SAMPLE, STREAM and TAIL. -/

namespace Sys2Proof.Machine

open Sys2Proof

/-- FILTER (R121): inversion first, masking after (R122). -/
def filterWord (raw invert enable : ChannelWord) : ChannelWord := (raw ^^^ invert) &&& enable

/-- FILTER under the masks of a state. -/
def State.filtered (s : State) (raw : ChannelWord) : ChannelWord :=
  filterWord raw s.invertMask s.enableMask

/-- RECORD (R123): a word that differs from the latest entry is stored at the next index and counted as a change. -/
def State.record (s : State) (f : ChannelWord) : State :=
  if f ≠ s.current then
    { s.setEntry (s.idx + 1#Config.indexWidth) f with idx := s.idx + 1#Config.indexWidth, changes := s.changes + 1#Config.counterWidth }
  else s

/-- COUNT_SAMPLE (R210). -/
def State.countSample (s : State) : State := { s with samples := s.samples + 1#Config.counterWidth }

/-- STREAM (R126): one byte per armed iteration, the latest stored word. -/
def State.stream (s : State) : State := if s.armed then s.emitTx (wireByte s.current) else s

/-- TAIL(n) (R125): the last n stored entries, most recent first; the index arithmetic wraps below 0. -/
def State.tail (s : State) (n : Nat) : List ChannelWord :=
  (List.range n).map fun j => s.entry (s.idx - BitVec.ofNat Config.indexWidth j)

/-- Sub-steps 1 to 4 of an iteration (R231): FILTER, RECORD, COUNT_SAMPLE, STREAM. -/
def State.capture (s : State) (raw : ChannelWord) : State :=
  (s.record (s.filtered raw)).countSample.stream

end Sys2Proof.Machine
end

