-- ==== Sys2Proof/Machine/Flags.lean ====
section
/-! DEFINITION. The core's two flags, ARMED (R33) and RUNNING (R36), and everything that writes them. No command computes a flag from a result. -/

namespace Sys2Proof.Machine

/-- `ARMED <- true`. -/
def State.arm (s : State) : State := { s with armed := true }

/-- `ARMED <- false`. -/
def State.disarm (s : State) : State := { s with armed := false }

/-- `ARMED <- !ARMED`. -/
def State.toggleArmed (s : State) : State := { s with armed := !s.armed }

/-- `RUNNING <- false`; nothing in the core sets it back (R204). -/
def State.quit (s : State) : State := { s with running := false }

end Sys2Proof.Machine
end

