-- ==== Sys2Proof/Machine/Keys.lean ====
section
/-! DEFINITION. Key events (R203 to R206). -/

namespace Sys2Proof.Machine

/-- One key event: TOGGLE (R203), QUIT (R204), OTHER (R205). -/
def State.keyEvent (s : State) : KeyEvent → State
  | .toggle => s.toggleArmed
  | .quit => s.quit
  | .other _ => s

/-- KEY_EVENTS (R206): every event, in list order; events after a QUIT are still applied. -/
def State.keyEvents (s : State) (keys : List KeyEvent) : State := keys.foldl State.keyEvent s

end Sys2Proof.Machine
end

