-- ==== Sys2Proof/Decode.lean ====
section
/-! DEFINITION. Frames: the default opcode map (R97), the frame parser PARSE_NEXT (R152), total on any bytes, and the encoder. -/

namespace Sys2Proof

open Config

/-- The default `OPCODE_MAP` of R97. PRESUMED (log entry 1): the source gives no byte value, these are the SUMP protocol's. -/
def sumpMap : OpcodeMap
  | .reset => 0x00#8
  | .arm => 0x01#8
  | .queryId => 0x02#8
  | .selfTest => 0x03#8
  | .getMetadata => 0x04#8
  | .finishNow => 0x05#8
  | .xon => 0x11#8
  | .xoff => 0x13#8
  | .setDivider => 0x80#8
  | .setReadDelayCount => 0x81#8
  | .setFlags => 0x82#8
  | .triggerMask => 0xC0#8
  | .triggerValues => 0xC1#8
  | .triggerConfig => 0xC2#8

/-- Every mnemonic once, in the order of the opcode table. -/
def Mnemonic.all : List Mnemonic :=
  [.reset, .arm, .queryId, .selfTest, .getMetadata, .finishNow, .xon, .xoff,
    .setDivider, .setReadDelayCount, .setFlags, .triggerMask, .triggerValues, .triggerConfig]

/-- `OPCODE_MAP^-1(op)`: the whole byte is compared with the map (R96, R101); `none` for a byte outside its image (R99). -/
def lookup (m : OpcodeMap) (op : Byte) : Option Mnemonic :=
  Mnemonic.all.find? fun k => m k == op

/-- Bit 7 of the opcode decides the frame format, for every byte value (R92). -/
def isLong (op : Byte) : Bool := op.getLsbD 7

/-- The length of a frame in bytes (R92): 5 if bit 7 of the opcode is set, else 1. -/
def frameLength (op : Byte) : Nat := if isLong op then 1 + argBytes else 1

/-- Operand assembly (R93): each new byte shifts the running value left by 8 bits and is ORed in, from 0. -/
def assembleArg (bytes : List Byte) : Word :=
  bytes.foldl (fun acc b => (acc <<< 8) ||| b.setWidth argWidth) 0#argWidth

/-- The command a recognised mnemonic stands for with the argument of its frame (R170).
A short TRIGGER_MASK or TRIGGER_VALUES exists under no legal map (R92); such a byte is read as unknown. -/
def commandOf (k : Mnemonic) (op : Byte) (arg : Option Word) : Instr :=
  match k with
  | .reset => .reset arg
  | .arm => .arm arg
  | .queryId => .queryId arg
  | .selfTest => .selfTest arg
  | .getMetadata => .getMetadata arg
  | .finishNow => .finishNow arg
  | .xon => .xon arg
  | .xoff => .xoff arg
  | .setDivider => .setDivider arg
  | .setReadDelayCount => .setReadDelayCount arg
  | .setFlags => .setFlags arg
  | .triggerMask => arg.elim (.unknown op) .triggerMask
  | .triggerValues => arg.elim (.unknown op) .triggerValues
  | .triggerConfig => .triggerConfig arg

/-- UNKNOWN(op) in the format bit 7 gives it (R99, R185). -/
def unknownOf (op : Byte) (arg : Option Word) : Instr :=
  match arg with
  | none => .unknown op
  | some a => .unknownLong op a

/-- The decoder of R101 on one complete frame; it never refuses a byte. -/
def decodeFrame (m : OpcodeMap) (op : Byte) (arg : Option Word) : Instr :=
  match lookup m op with
  | some k => commandOf k op arg
  | none => unknownOf op arg

/-- What PARSE_NEXT finds at the head of the bytes left in a chunk (R150 to R153). -/
inductive Parse where
  /-- No byte is left: the chunk has ended (R156). -/
  | endOfChunk
  /-- IncompleteArgument(op, have): bit 7 of `op` is set and only `present` argument bytes are left (R153). -/
  | incomplete (op : Byte) (present : Nat)
  /-- A complete frame, and the bytes after it. -/
  | command (i : Instr) (rest : List Byte)
  deriving DecidableEq, Repr

/-- PARSE_NEXT (R150, R152): total on any bytes, under any opcode map. -/
def parseNext (m : OpcodeMap) (bytes : List Byte) : Parse :=
  match bytes with
  | [] => .endOfChunk
  | op :: rest =>
    if isLong op then
      if rest.length < argBytes then .incomplete op rest.length
      else .command (decodeFrame m op (some (assembleArg (rest.take argBytes)))) (rest.drop argBytes)
    else .command (decodeFrame m op none) rest

/-- The opcode map the core is built with. -/
def opcodeMap : OpcodeMap := sumpMap

/-- PARSE_NEXT under the map the core is built with. -/
def decode (bytes : List Byte) : Parse := parseNext opcodeMap bytes

/-! The encoder, from the format tables of R90 and R91. -/

/-- Byte 0 of an instruction's frame: the opcode (R90, R91). -/
def Instr.opcode (m : OpcodeMap) : Instr → Byte
  | .reset _ => m .reset
  | .arm _ => m .arm
  | .queryId _ => m .queryId
  | .selfTest _ => m .selfTest
  | .getMetadata _ => m .getMetadata
  | .finishNow _ => m .finishNow
  | .xon _ => m .xon
  | .xoff _ => m .xoff
  | .setDivider _ => m .setDivider
  | .setReadDelayCount _ => m .setReadDelayCount
  | .setFlags _ => m .setFlags
  | .triggerMask _ => m .triggerMask
  | .triggerValues _ => m .triggerValues
  | .triggerConfig _ => m .triggerConfig
  | .unknown op => op
  | .unknownLong op _ => op

/-- The argument an instruction's frame carries, if it is a long frame. -/
def Instr.arg : Instr → Option Word
  | .reset arg => arg
  | .arm arg => arg
  | .queryId arg => arg
  | .selfTest arg => arg
  | .getMetadata arg => arg
  | .finishNow arg => arg
  | .xon arg => arg
  | .xoff arg => arg
  | .setDivider arg => arg
  | .setReadDelayCount arg => arg
  | .setFlags arg => arg
  | .triggerMask a => some a
  | .triggerValues a => some a
  | .triggerConfig arg => arg
  | .unknown _ => none
  | .unknownLong _ a => some a

/-- The argument bytes of a long frame, `A3` to `A0`: the most significant first (R64, R91). -/
def wordBytes (a : Word) : List Byte :=
  (List.range argBytes).map fun j => (a >>> (8 * (argBytes - 1 - j))).setWidth 8

/-- The frame of an instruction under an opcode map, first byte on the wire first. -/
def encodeWith (m : OpcodeMap) (i : Instr) : List Byte :=
  i.opcode m :: (i.arg.elim [] wordBytes)

/-- The frame of an instruction under the map the core is built with. -/
def encode (i : Instr) : List Byte := encodeWith opcodeMap i

/-! Frames numbered as the opcode table numbers them. -/

/-- The first `n` bytes of a number, its bits 7..0 first: the first byte of a frame is the first on the wire. -/
def numberBytes : Nat → Nat → List Byte
  | 0, _ => []
  | n + 1, w => BitVec.ofNat 8 w :: numberBytes n (w / 256)

/-- The one frame a number of the opcode table stands for: bits above `nbits` are zero, and bit 7 of the first byte says
whether the frame has one byte or five (R92). -/
def tableFrame (nbits w : Nat) : List Byte :=
  let bytes := numberBytes (1 + argBytes) (w % 2 ^ nbits)
  bytes.take (frameLength (bytes.headD 0#8))

/-- The instruction the decoder reads from a number of the opcode table. -/
def decodeTableWord (nbits w : Nat) : Option Instr :=
  match decode (tableFrame nbits w) with
  | .command i _ => some i
  | .incomplete _ _ => none
  | .endOfChunk => none

end Sys2Proof
end

