-- ==== Sys2Proof/Machine/Operands.lean ====
section
/-! DEFINITION. The one operand field a command reads: the mask operand of TRIGGER_MASK and TRIGGER_VALUES (R94). The argument itself is assembled by the parser (Decode.lean, R93). -/

namespace Sys2Proof.Machine

open Sys2Proof

/-- The mask operand: the top byte of the argument, `(arg >> 24) AND 0xFF`; the other argument bytes are ignored (R94). -/
def maskOperand (a : Word) : ChannelWord :=
  channelWordOf (((a >>> (8 * (Config.argBytes - 1))) &&& 0xFF#Config.argWidth).setWidth 8)

end Sys2Proof.Machine
end

