-- ==== Sys2Proof/Machine/FilterConfig.lean ====
section
/-! DEFINITION. The filter configuration commands: TRIGGER_MASK and TRIGGER_VALUES. Neither re-filters a stored entry. -/

namespace Sys2Proof.Machine

open Sys2Proof

/-- TRIGGER_MASK a (R174): the top byte of the argument becomes ENABLE_MASK. -/
def execTriggerMask (a : Word) (s : State) : Host.Outcome State Fault Refusal :=
  .next { s with enableMask := maskOperand a }

/-- TRIGGER_VALUES a (R175): the top byte of the argument becomes INVERT_MASK. -/
def execTriggerValues (a : Word) (s : State) : Host.Outcome State Fault Refusal :=
  .next { s with invertMask := maskOperand a }

end Sys2Proof.Machine
end

