-- ==== Sys2Proof/Machine/Identification.lean ====
section
/-! DEFINITION. The identification commands: QUERY_ID and GET_METADATA. Each emits the same bytes in every state. -/

namespace Sys2Proof.Machine

open Sys2Proof

/-- `ID_STRING` of R12, byte 0 first (R65); its characters are free values (log entry 3). -/
def idString : List Byte := (List.range Config.idLength).map fun j => (Config.idChar j).setWidth 8

/-- `METADATA` of R177, byte 0 first (R65); its bytes are free values (log entry 4). -/
def metadata : List Byte := (List.range Config.metadataLength).map Config.metadataByte

/-- QUERY_ID (R176): the identification string on TX, byte 0 first. -/
def execQueryId (_arg : Option Word) (s : State) : Host.Outcome State Fault Refusal :=
  .next (s.emitTxAll idString)

/-- GET_METADATA (R177): the metadata record on TX, byte 0 first. -/
def execGetMetadata (_arg : Option Word) (s : State) : Host.Outcome State Fault Refusal :=
  .next (s.emitTxAll metadata)

end Sys2Proof.Machine
end

