-- ==== Sys2Proof/Machine/Session.lean ====
section
/-! DEFINITION. The session control commands: RESET, FINISH_NOW and ARM. -/

namespace Sys2Proof.Machine

open Sys2Proof

/-- The shared effect of RESET and FINISH_NOW (R171): disarm, and with `RESET_CLEARS_CAPTURE` also put IDX and the masks at
their defaults. BUF, the counters, TICKS and RUNNING are never written. -/
def State.endSession (clears : Bool) (s : State) : State :=
  if clears then
    { s.disarm with idx := 0#Config.indexWidth, enableMask := Config.enableDefault, invertMask := Config.invertDefault }
  else s.disarm

/-- RESET (R171). -/
def execReset (_arg : Option Word) (s : State) : Host.Outcome State Fault Refusal :=
  .next (s.endSession s.resetClearsCapture)

/-- FINISH_NOW (R172). -/
def execFinishNow (_arg : Option Word) (s : State) : Host.Outcome State Fault Refusal :=
  .next (s.endSession s.resetClearsCapture)

/-- ARM (R173): it sets the flag and does not toggle it. -/
def execArm (_arg : Option Word) (s : State) : Host.Outcome State Fault Refusal :=
  .next s.arm

end Sys2Proof.Machine
end

