-- ==== Sys2Proof/Machine/Stubs.lean ====
section
/-! DEFINITION. The seven protocol compatibility stubs: accepted, argument (if any) discarded, no state change (R178 to R184). -/

namespace Sys2Proof.Machine

open Sys2Proof

/-- XON (R178): no flow control exists. -/
def execXon (_arg : Option Word) (s : State) : Host.Outcome State Fault Refusal := .next s

/-- XOFF (R179): the streaming gate keeps emitting while Armed. -/
def execXoff (_arg : Option Word) (s : State) : Host.Outcome State Fault Refusal := .next s

/-- SET_DIVIDER (R180): the core samples once per iteration whatever the argument. -/
def execSetDivider (_arg : Option Word) (s : State) : Host.Outcome State Fault Refusal := .next s

/-- TRIGGER_CONFIG (R181): no trigger matching exists. -/
def execTriggerConfig (_arg : Option Word) (s : State) : Host.Outcome State Fault Refusal := .next s

/-- SET_READ_DELAY_COUNT (R182): no capture length or delay exists. -/
def execSetReadDelayCount (_arg : Option Word) (s : State) : Host.Outcome State Fault Refusal := .next s

/-- SET_FLAGS (R183): no channel group or mode setting exists. -/
def execSetFlags (_arg : Option Word) (s : State) : Host.Outcome State Fault Refusal := .next s

/-- SELF_TEST (R184): it runs no test and emits no byte. -/
def execSelfTest (_arg : Option Word) (s : State) : Host.Outcome State Fault Refusal := .next s

end Sys2Proof.Machine
end

