-- ==== Sys2Proof/Machine/Unknown.lean ====
section
/-! DEFINITION. Unknown opcodes: reported on DIAG and ignored (R185, R252). A long frame's argument is not recorded. -/

namespace Sys2Proof.Machine

open Sys2Proof

/-- UNKNOWN(op) in a short frame (R185). -/
def execUnknown (op : Byte) (s : State) : Host.Outcome State Fault Refusal :=
  .next (s.raise (.unknownCommand op))

/-- UNKNOWN(op) in a long frame; the argument is discarded (R185). -/
def execUnknownLong (op : Byte) (_a : Word) (s : State) : Host.Outcome State Fault Refusal :=
  .next (s.raise (.unknownCommand op))

end Sys2Proof.Machine
end

