-- ==== Sys2Proof/Machine/Dispatch.lean ====
section
/-! DEFINITION. DISPATCH (R170): each command's meaning. -/

namespace Sys2Proof.Machine

open Sys2Proof

def exec (i : Instr) (s : State) : Host.Outcome State Fault Refusal :=
  match i with
  | .reset arg => Sys2Proof.Machine.execReset arg s
  | .arm arg => Sys2Proof.Machine.execArm arg s
  | .queryId arg => Sys2Proof.Machine.execQueryId arg s
  | .selfTest arg => Sys2Proof.Machine.execSelfTest arg s
  | .getMetadata arg => Sys2Proof.Machine.execGetMetadata arg s
  | .finishNow arg => Sys2Proof.Machine.execFinishNow arg s
  | .xon arg => Sys2Proof.Machine.execXon arg s
  | .xoff arg => Sys2Proof.Machine.execXoff arg s
  | .setDivider arg => Sys2Proof.Machine.execSetDivider arg s
  | .setReadDelayCount arg => Sys2Proof.Machine.execSetReadDelayCount arg s
  | .setFlags arg => Sys2Proof.Machine.execSetFlags arg s
  | .triggerMask a => Sys2Proof.Machine.execTriggerMask a s
  | .triggerValues a => Sys2Proof.Machine.execTriggerValues a s
  | .triggerConfig arg => Sys2Proof.Machine.execTriggerConfig arg s
  | .unknown op => Sys2Proof.Machine.execUnknown op s
  | .unknownLong op a => Sys2Proof.Machine.execUnknownLong op a s

end Sys2Proof.Machine
end

