-- ==== Sys2Proof/Machine/Parser.lean ====
section
/-! DEFINITION. PROCESS_CHUNK (R150): the frames of a chunk are parsed and dispatched one after another, each as soon as it is parsed. -/

namespace Sys2Proof.Machine

open Sys2Proof Config

/-- The loop of PROCESS_CHUNK on the bytes left in the chunk. The first argument bounds the passes; every frame has at least
one byte, so the number of bytes left is enough. -/
def processFrames (m : OpcodeMap) : Nat → List Byte → State → Host.Outcome State Fault Refusal
  | 0, _, s => .next s
  | fuel + 1, bytes, s =>
    match parseNext m bytes with
    | .endOfChunk => .next s
    | .incomplete op present => .next (s.raise (.incompleteArgument op present))
    | .command i rest => andThen (exec i s) (processFrames m fuel rest)

/-- PROCESS_CHUNK(c) (R150). -/
def processChunk (m : OpcodeMap) (chunk : List Byte) (s : State) : Host.Outcome State Fault Refusal :=
  processFrames m chunk.length chunk s

/-- Sub-step 5 of an iteration (R231): PROCESS_CHUNK when a chunk arrived (R156). -/
def receive (m : OpcodeMap) (rx : Option (List Byte)) (s : State) : Host.Outcome State Fault Refusal :=
  match rx with
  | none => .next s
  | some chunk => processChunk m chunk s

end Sys2Proof.Machine
end

