-- ==== Sys2Proof/Machine/Telemetry.lean ====
section
/-! DEFINITION. The sample aggregator's telemetry tick (R211, R212). The once-per-period yield has no effect (R215). -/

namespace Sys2Proof.Machine

/-- The period part of the tick: TICKS advances, and the tick that brings it to PERIOD_TICKS clears the counters and TICKS
together (R211, R212). -/
def State.advancePeriod (s : State) : State :=
  if s.ticks + 1 = Config.periodTicks then
    { s with samples := 0#Config.counterWidth, changes := 0#Config.counterWidth, ticks := 0 }
  else { s with ticks := s.ticks + 1 }

/-- TELEMETRY_TICK (R211): the frame carries the values before any reset. -/
def State.telemetryTick (s : State) : State :=
  (s.emitFrame ⟨s.samples, s.changes, s.tail Config.tailEntries⟩).advancePeriod

/-- Sub-step 6 of an iteration (R231). -/
def State.telemetry (s : State) (tick : Bool) : State := if tick then s.telemetryTick else s

end Sys2Proof.Machine
end

