-- ==== Sys2Proof/Machine/Iteration.lean ====
section
/-! DEFINITION. One iteration of the core's loop (R231, R232), under any opcode map, and how a frame is put at the input port. -/

namespace Sys2Proof.Machine

open Sys2Proof Config

/-- Sub-steps 6 and 7 (R231): TELEMETRY_TICK, then KEY_EVENTS. -/
def State.finishIteration (s : State) (inp : Input) : State := (s.telemetry inp.tick).keyEvents inp.keys

/-- STEP(S, I) (R232). It exists only while RUNNING is true; a halted core has no step (R230). -/
def iterate (m : OpcodeMap) (s : State) (inp : Input) : Host.Outcome State Fault Refusal :=
  if s.running then
    andThen (receive m inp.rx (s.capture inp.raw)) fun t => .next (t.finishIteration inp)
  else .fault .halted

/-- One step: take the iteration's input record from the port and run the iteration. -/
def stepWith (m : OpcodeMap) (s : State) : Host.Outcome State Fault Refusal :=
  iterate m s.consumeInput s.nextInput

/-- Put a chunk at the input port for the coming iteration: no tick, no key, and the raw word that the filter at full enable
turns into the latest stored word. -/
def State.presentChunk (s : State) (chunk : List Byte) : State :=
  { s with inputs := ⟨s.current ^^^ s.invertMask, some chunk, false, []⟩ :: s.inputs }

end Sys2Proof.Machine
end

