-- ==== Sys2Proof/Machine/Step.lean ====
section
/-! DEFINITION. The step of the core as built: one iteration of its loop (R9, R230) under its opcode map. -/

namespace Sys2Proof.Machine

open Sys2Proof

/-- One iteration. -/
def step (s : State) : Host.Outcome State Fault Refusal := stepWith opcodeMap s

/-- The core fetches no instruction (R41): a command arrives in the chunk of an iteration's input record, so the frame is put
there (log entry 7). -/
def State.withFetchWord (s : State) (nbits w : Nat) : State := s.presentChunk (tableFrame nbits w)

end Sys2Proof.Machine
end

