-- ==== Sys2Proof/Safety.lean ====
section
/-! DEFINITION. What claims mean by a good state and a safe run. -/

namespace Sys2Proof.Machine

/-- A diagnostic event as R50 allows it: an incomplete frame had at most three of its four argument bytes. -/
def DiagEvent.ok : DiagEvent → Prop
  | .incompleteArgument op present => Sys2Proof.isLong op = true ∧ present < Config.argBytes
  | .unknownCommand _ => True

/-- The invariant of the core: the buffer is in canonical form within its 256 entries (R60), TICKS is one of 0 to 4 (R39),
every telemetry frame has a tail of five entries (R51), and every diagnostic is one the core can report (R50). -/
structure State.Inv (s : State) : Prop where
  bufWf : Memory.wf s.buf
  ticksLt : s.ticks < Config.periodTicks
  tailsFull : ∀ f ∈ s.frames, f.tail.length = Config.tailEntries
  diagOk : ∀ e ∈ s.diag, e.ok

/-- The buffer of `s` holds these stored words, newest first, as R70 says: with T transitions recorded there are T + 1 words, IDX is
T modulo N, the last N words stand behind IDX, and an entry never written still reads 0x00. -/
def State.Aged (s : State) (words : List Sys2Proof.ChannelWord) : Prop :=
  words ≠ [] ∧ s.idx = BitVec.ofNat Config.indexWidth (words.length - 1) ∧
  ∀ j, j < Config.bufferEntries → s.entry (s.idx - BitVec.ofNat Config.indexWidth j) = words.getD j 0#Config.channelWidth

/-- The halted state (R230). -/
def State.Halted (s : State) : Prop := s.running = false

/-- An outcome a run of the core may have: a next state, or the clean end of the run (R234). -/
def Safe (o : Host.Outcome State Fault Refusal) : Prop :=
  (∃ t, o = .next t) ∨ o = .fault .halted

/-- `Reaches s t`: some number of steps leads from `s` to `t`. -/
inductive Reaches : State → State → Prop where
  | refl (s : State) : Reaches s s
  | tail {s t u : State} : Reaches s t → step t = .next u → Reaches s u

end Sys2Proof.Machine
end

