-- ==== Sys2Proof/WellFormed.lean ====
section
/-! DEFINITION. Which instructions are frames of the core: the format of a recognised command is the one bit 7 of its byte gives (R92, R98), and an unknown opcode lies outside the map (R99). -/

namespace Sys2Proof

open Config

/-- An argument is present exactly when bit 7 of the opcode is set (R91, R170). -/
def argFits (op : Byte) (arg : Option Word) : Bool := arg.isSome == isLong op

/-- An instruction is well formed under an opcode map when it is what some frame decodes to. -/
def Instr.wfWith (m : OpcodeMap) : Instr → Bool
  | .reset arg => argFits (m .reset) arg
  | .arm arg => argFits (m .arm) arg
  | .queryId arg => argFits (m .queryId) arg
  | .selfTest arg => argFits (m .selfTest) arg
  | .getMetadata arg => argFits (m .getMetadata) arg
  | .finishNow arg => argFits (m .finishNow) arg
  | .xon arg => argFits (m .xon) arg
  | .xoff arg => argFits (m .xoff) arg
  | .setDivider arg => argFits (m .setDivider) arg
  | .setReadDelayCount arg => argFits (m .setReadDelayCount) arg
  | .setFlags arg => argFits (m .setFlags) arg
  | .triggerMask _ => isLong (m .triggerMask)
  | .triggerValues _ => isLong (m .triggerValues)
  | .triggerConfig arg => argFits (m .triggerConfig) arg
  | .unknown op => !isLong op && (lookup m op).isNone
  | .unknownLong op _ => isLong op && (lookup m op).isNone

/-- Well formed under the map the core is built with. -/
def Instr.wf (i : Instr) : Bool := i.wfWith opcodeMap

end Sys2Proof
end

