-- ==== Sys2Proof/Certificates/Slice0/Obligations.lean ====
section
/-! DEFINITION. The statements about the capture core, in the order of the spec's files: encoding, parser, commands, capture path, key events and aggregator, iteration, reset, and the claims about the whole machine. -/

open Sys2Proof Sys2Proof.Machine Sys2Proof.Config

/-! ### Frames (30_encoding.md) -/

/-- Decoding the frame of a well-formed instruction, whatever bytes follow it, gives the instruction back with every operand (R90,
R91, R93), under every legal opcode map. That an instruction carries the argument of its frame whether or not it reads it is the
model's form (log entry 13). -/
def Obligations.DecodeOfEncodeGivesInstructionBack : Prop :=
  ∀ (m : OpcodeMap) (i : Instr) (rest : List Byte), OpcodeMap.Legal m → i.wfWith m = true →
    parseNext m (encodeWith m i ++ rest) = .command i rest

/-- Every frame the parser accepts is the frame of the well-formed instruction it answers: no byte of it is dropped, and no two
frames give one instruction. That an instruction carries the argument of its frame whether or not it reads it is the model's form
(log entry 13). -/
def Obligations.EncodeOfDecodeGivesBytesBack : Prop :=
  ∀ (m : OpcodeMap) (bytes rest : List Byte) (i : Instr), OpcodeMap.Legal m →
    parseNext m bytes = .command i rest → i.wfWith m = true ∧ bytes = encodeWith m i ++ rest

/-- Frames written out from the format tables R90 and R91 and the default bytes of R97 (log entry 1), one of each family, decode
to the instructions they stand for. -/
def Obligations.WrittenFramesDecodeAsTabled : Prop :=
  decode [0x00#8] = .command (.reset none) [] ∧
  decode [0x01#8] = .command (.arm none) [] ∧
  decode [0x02#8] = .command (.queryId none) [] ∧
  decode [0x13#8] = .command (.xoff none) [] ∧
  decode [0x80#8, 0x00#8, 0x00#8, 0x00#8, 0x63#8] = .command (.setDivider (some 0x00000063#32)) [] ∧
  decode [0xC0#8, 0x12#8, 0x34#8, 0x56#8, 0x78#8] = .command (.triggerMask 0x12345678#32) [] ∧
  decode [0xC1#8, 0xAB#8, 0x00#8, 0x00#8, 0x00#8] = .command (.triggerValues 0xAB000000#32) [] ∧
  decode [0x7F#8] = .command (.unknown 0x7F#8) [] ∧
  decode [0xC4#8, 0x01#8, 0x02#8, 0x03#8, 0x04#8] = .command (.unknownLong 0xC4#8 0x01020304#32) []

/-- The argument is the four bytes after the opcode, the first received most significant (R64, R93). -/
def Obligations.ArgumentIsBigEndian : Prop :=
  ∀ a3 a2 a1 a0 : Byte, assembleArg [a3, a2, a1, a0] = a3 ++ a2 ++ a1 ++ a0

/-- Bit 7 of the opcode alone decides the frame length, under every map, legal or not, and for unknown opcodes too (the derived rule
R92): a
frame that is all in the chunk is parsed, and the next frame starts right after it (R151). -/
def Obligations.BitSevenAloneDecidesFrameLength : Prop :=
  ∀ (m : OpcodeMap) (op : Byte) (rest : List Byte),
    frameLength op = (if op.getLsbD 7 then 5 else 1) ∧
    (frameLength op ≤ (op :: rest).length →
      ∃ i, parseNext m (op :: rest) = .command i ((op :: rest).drop (frameLength op)))

/-- Every byte outside the image of the opcode map is an unknown opcode (R99), in the format bit 7 gives it, and a byte of the image
is the mnemonic's (R101), under every legal map. That an instruction carries the argument of its frame whether or not it reads it is
the model's form (log entry 13). -/
def Obligations.BytesOutsideTheMapAreUnknown : Prop :=
  ∀ (m : OpcodeMap) (op : Byte), OpcodeMap.Legal m →
    ((∀ k, m k ≠ op) → decodeFrame m op none = .unknown op ∧ ∀ a, decodeFrame m op (some a) = .unknownLong op a) ∧
    (∀ k, m k = op → ∀ arg : Option Word, arg.isSome = op.getLsbD 7 →
      decodeFrame m op arg = commandOf k op arg ∧ (decodeFrame m op arg).opcode m = op ∧ (decodeFrame m op arg).arg = arg)

/-- The default map (log entry 1) is legal, and its unknown bytes are exactly those of R100: 120 short and 122 long. -/
def Obligations.DefaultMapIsLegalWithTheListedUnknownBytes : Prop :=
  OpcodeMap.Legal opcodeMap ∧
  (∀ op : Byte, lookup opcodeMap op = none ↔
    ((0x06#8 ≤ op ∧ op ≤ 0x10#8) ∨ op = 0x12#8 ∨ (0x14#8 ≤ op ∧ op ≤ 0x7F#8) ∨
      (0x83#8 ≤ op ∧ op ≤ 0xBF#8) ∨ (0xC3#8 ≤ op ∧ op ≤ 0xFF#8))) ∧
  ((List.range 128).filter fun n => (lookup opcodeMap (BitVec.ofNat 8 n)).isNone).length = 120 ∧
  ((List.range 128).filter fun n => (lookup opcodeMap (BitVec.ofNat 8 (128 + n))).isNone).length = 122

/-! ### The parser (41_parser.md) -/

/-- PROCESS_CHUNK (R150): the complete frames of a chunk are dispatched one after another, in the order of the stream, each seeing
the effects of those before it; a chunk that is all frames ends there, and one that ends in a truncated frame reports it on DIAG
and undoes nothing (R155). -/
def Obligations.ChunkRunsItsFramesInOrder : Prop :=
  ∀ (m : OpcodeMap) (is : List Instr) (s : State), OpcodeMap.Legal m → (∀ i ∈ is, i.wfWith m = true) →
    processChunk m (is.flatMap (encodeWith m)) s = is.foldl (fun o i => andThen o (exec i)) (.next s) ∧
    ∀ (op : Byte) (part : List Byte), op.getLsbD 7 = true → part.length < 4 →
      processChunk m (is.flatMap (encodeWith m) ++ op :: part) s =
        andThen (is.foldl (fun o i => andThen o (exec i)) (.next s)) fun t =>
          .next { t with diag := t.diag ++ [.incompleteArgument op part.length] }

/-- An incomplete argument (R153): for every opcode with bit 7 set, recognised or unknown (R258), under every map, fewer than four
bytes after it are discarded with the opcode, reported as IncompleteArgument, and nothing is dispatched. -/
def Obligations.IncompleteArgumentDiscardsTheChunk : Prop :=
  ∀ (m : OpcodeMap) (op : Byte) (part : List Byte) (s : State), op.getLsbD 7 = true → part.length < 4 →
    processChunk m (op :: part) s = .next { s with diag := s.diag ++ [.incompleteArgument op part.length] }

/-- (The derived rule R158.) A long frame split by the transport after its first k bytes, k from 1 to 4: the first chunk only
reports IncompleteArgument, and the second chunk is parsed from its first byte as new frames, so an argument byte with bit 7 clear
is dispatched as an opcode and one with bit 7 set is another incomplete frame. The form of the report is the spec's decisions D15
and D28 (log entry 11). -/
def Obligations.SplitFrameIsLost : Prop :=
  ∀ (m : OpcodeMap) (i : Instr) (a : Word) (k : Nat) (s : State), OpcodeMap.Legal m → i.wfWith m = true →
    i.arg = some a → 1 ≤ k → k ≤ 4 →
    processChunk m ((encodeWith m i).take k) s =
      .next { s with diag := s.diag ++ [.incompleteArgument (i.opcode m) (k - 1)] } ∧
    ∀ (b : Byte) (rest : List Byte), (encodeWith m i).drop k = b :: rest →
      processChunk m ((encodeWith m i).drop k) s =
        if b.getLsbD 7 then .next { s with diag := s.diag ++ [.incompleteArgument b rest.length] }
        else andThen (exec (decodeFrame m b none) s) (processChunk m rest)

/-- An empty chunk parses no frame and changes nothing, and without a chunk no frame is parsed (the derived rule R156). -/
def Obligations.EmptyChunkChangesNothing : Prop :=
  ∀ (m : OpcodeMap) (s : State), receive m (some []) s = .next s ∧ receive m none s = .next s

/-- The diagnostic codes of the two reported error kinds (R251, R252; the codes are the spec's decision D15, log entry 11). -/
def Obligations.DiagnosticCodes : Prop :=
  ∀ (op : Byte) (present : Nat),
    (DiagEvent.incompleteArgument op present).code = 1 ∧ (DiagEvent.unknownCommand op).code = 2

/-! ### Commands (42_commands.md) -/

/-- RESET (R171) and FINISH_NOW (R172): ARMED is cleared; with `RESET_CLEARS_CAPTURE` IDX and the masks also take their
defaults; nothing else is written, for either value of the parameter, whatever argument the frame carried. That the parameter is
read from the state is the model's choice (log entry 2). -/
def Obligations.ResetAndFinishNowEndTheSession : Prop :=
  ∀ (s : State) (arg : Option Word),
    (s.resetClearsCapture = false →
      exec (.reset arg) s = .next { s with armed := false } ∧
      exec (.finishNow arg) s = .next { s with armed := false }) ∧
    (s.resetClearsCapture = true →
      exec (.reset arg) s =
        .next { s with armed := false, idx := 0#8, enableMask := 0xFF#8, invertMask := 0x00#8 } ∧
      exec (.finishNow arg) s =
        .next { s with armed := false, idx := 0#8, enableMask := 0xFF#8, invertMask := 0x00#8 })

/-- With the default `RESET_CLEARS_CAPTURE` (false at reset; log entry 2) RESET clears ARMED and nothing else (R282); a restart alone
restores every element of the core. That a restart is an operation which leaves the environment's two fields and the parameter alone
is the model's choice (log entry 12). -/
def Obligations.ResetCommandIsNotPowerOnReset : Prop :=
  State.reset.resetClearsCapture = false ∧
  ∀ (s : State) (arg : Option Word),
    (s.resetClearsCapture = false → exec (.reset arg) s = .next { s with armed := false }) ∧
    s.restart =
      { State.reset with inputs := s.inputs, drawn := s.drawn, resetClearsCapture := s.resetClearsCapture }

/-- ARM (R173) sets ARMED, armed or not, and writes nothing else. -/
def Obligations.ArmSetsArmed : Prop :=
  ∀ (s : State) (arg : Option Word), exec (.arm arg) s = .next { s with armed := true }

/-- TRIGGER_MASK a (R174): ENABLE_MASK takes bits 31..24 of the argument, and nothing else is written. -/
def Obligations.TriggerMaskSetsEnableMask : Prop :=
  ∀ (s : State) (a : Word), exec (.triggerMask a) s = .next { s with enableMask := a.extractLsb' 24 8 }

/-- TRIGGER_VALUES a (R175): INVERT_MASK takes bits 31..24 of the argument, and nothing else is written. -/
def Obligations.TriggerValuesSetsInvertMask : Prop :=
  ∀ (s : State) (a : Word), exec (.triggerValues a) s = .next { s with invertMask := a.extractLsb' 24 8 }

/-- The mask operand is the first argument byte; the other three are read and ignored (R94). -/
def Obligations.MaskOperandIsFirstArgumentByte : Prop :=
  ∀ (s : State) (a3 a2 a1 a0 : Byte),
    exec (.triggerMask (assembleArg [a3, a2, a1, a0])) s = .next { s with enableMask := a3 } ∧
    exec (.triggerValues (assembleArg [a3, a2, a1, a0])) s = .next { s with invertMask := a3 }

/-- QUERY_ID (R176) appends the four bytes of ID_STRING to TX, byte 0 first, in every state, and writes nothing else; each byte
is ASCII (R12). The bytes are free values (log entry 3). -/
def Obligations.QueryIdEmitsTheIdString : Prop :=
  idString.length = 4 ∧ (∀ b ∈ idString, b.toNat < 128) ∧
  ∀ (s : State) (arg : Option Word), exec (.queryId arg) s = .next { s with tx := s.tx ++ idString }

/-- GET_METADATA (R177) appends the 37 bytes of METADATA to TX, byte 0 first, in every state, and writes nothing else. The bytes
are free values (log entry 4). -/
def Obligations.GetMetadataEmitsTheRecord : Prop :=
  metadata.length = 37 ∧
  ∀ (s : State) (arg : Option Word), exec (.getMetadata arg) s = .next { s with tx := s.tx ++ metadata }

/-- The seven stubs (R178 to R184) are accepted, their argument (if any) is discarded, and no state changes. -/
def Obligations.StubsChangeNothing : Prop :=
  ∀ (s : State) (arg : Option Word),
    exec (.xon arg) s = .next s ∧ exec (.xoff arg) s = .next s ∧ exec (.setDivider arg) s = .next s ∧
    exec (.triggerConfig arg) s = .next s ∧ exec (.setReadDelayCount arg) s = .next s ∧
    exec (.setFlags arg) s = .next s ∧ exec (.selfTest arg) s = .next s

/-- UNKNOWN(op) (R185), short or long: UnknownCommand(op) is appended to DIAG and nothing else is written. The form of the report is
the spec's decision D15 (log entry 11). -/
def Obligations.UnknownCommandIsReportedAndIgnored : Prop :=
  ∀ (s : State) (op : Byte) (a : Word),
    exec (.unknown op) s = .next { s with diag := s.diag ++ [.unknownCommand op] } ∧
    exec (.unknownLong op a) s = .next { s with diag := s.diag ++ [.unknownCommand op] }

/-- No command's effect depends on ARMED, RUNNING, the masks, the counters or any other state of the core (R170): for each command and
each value of the parameter `RESET_CLEARS_CAPTURE` (log entry 2) there are bytes it appends to TX, events it appends to DIAG, and
values it gives the session elements it writes, the same in every state, and it completes in every state. -/
def Obligations.CommandEffectIsTheSameInEveryState : Prop :=
  ∀ (i : Instr) (clears : Bool), ∃ (bytes : List Byte) (events : List DiagEvent) (armed : Option Bool)
    (enable invert : Option ChannelWord) (idx : Option Index),
    ∀ s : State, s.resetClearsCapture = clears → exec i s = .next
      { s with
        tx := s.tx ++ bytes
        diag := s.diag ++ events
        armed := armed.getD s.armed
        enableMask := enable.getD s.enableMask
        invertMask := invert.getD s.invertMask
        idx := idx.getD s.idx }

/-- The frame of all commands, over a whole chunk of them: no command reads or clears the buffer (R32), and none writes RUNNING
(R36), a counter (R37, R38, R212), TICKS (R39) or FRAMES (R51); with `RESET_CLEARS_CAPTURE` unset none writes IDX (R31, R171); TX and
DIAG only grow (R49, R50). That the parameter is a field of the state, which no command writes either, is the model's choice (log
entry 2). -/
def Obligations.NoChunkWritesBufferOrCounters : Prop :=
  ∀ (m : OpcodeMap) (chunk : List Byte) (s t : State), processChunk m chunk s = .next t →
    (∀ i : Index, t.entry i = s.entry i) ∧ t.running = s.running ∧ t.samples = s.samples ∧ t.changes = s.changes ∧
    t.ticks = s.ticks ∧ t.frames = s.frames ∧ t.resetClearsCapture = s.resetClearsCapture ∧
    (s.resetClearsCapture = false → t.idx = s.idx) ∧
    s.tx <+: t.tx ∧ s.diag <+: t.diag

/-! ### The capture path (20_memory.md, 40_capture.md) -/

/-- The buffer as a memory: a write to an index is what a read of that index gives and leaves every other index alone (R60), and
a write keeps the canonical form. -/
def Obligations.BufferReadAfterWrite : Prop :=
  ∀ (mem : Memory) (i j : Index) (v : Byte), Memory.wf mem →
    Memory.read (Memory.write mem i.toNat v) j.toNat = (if j = i then v else Memory.read mem j.toNat) ∧
    Memory.wf (Memory.write mem i.toNat v)

/-- Two buffers in canonical form that read alike at all 256 indexes are equal data. -/
def Obligations.BufferFormIsCanonical : Prop :=
  ∀ a b : Memory, Memory.wf a → Memory.wf b →
    (∀ i : Index, Memory.read a i.toNat = Memory.read b i.toNat) → a = b

/-- FILTER (R121) is 8 independent lanes (R122): inversion first, masking after. -/
def Obligations.FilterWorksChannelByChannel : Prop :=
  ∀ (raw invert enable : Byte) (i : Nat),
    filterWord raw invert enable = (raw ^^^ invert) &&& enable ∧
    (filterWord raw invert enable).getLsbD i =
      (enable.getLsbD i && (raw.getLsbD i ^^ invert.getLsbD i))

/-- RECORD (R123): a word unlike the current entry is stored at the next index modulo 256 and counted; every other entry and
every other element keep their values. A word equal to it writes nothing. That CHANGES wraps is the spec's decision D10 (log entry
9). -/
def Obligations.RecordStoresOnlyChanges : Prop :=
  ∀ (s : State) (f : ChannelWord), Memory.wf s.buf →
    (f = s.current → s.record f = s) ∧
    (f ≠ s.current →
      (s.record f).idx = s.idx + 1#8 ∧ (s.record f).changes = s.changes + 1#32 ∧
      (∀ j : Index, (s.record f).entry j = if j = s.idx + 1#8 then f else s.entry j) ∧
      s.record f = { s with buf := (s.record f).buf, idx := (s.record f).idx, changes := (s.record f).changes })

/-- TAIL(n) (R125): n entries, most recent first, the index counting back modulo 256. -/
def Obligations.TailCountsBackFromTheIndex : Prop :=
  ∀ (s : State) (n : Nat), 1 ≤ n → n ≤ 256 →
    (s.tail n).length = n ∧ ∀ j, j < n → (s.tail n)[j]? = some (s.entry (s.idx - BitVec.ofNat 8 j))

/-- STREAM (R126) after RECORD in one iteration: while armed, TX gets exactly the filtered word of the same iteration (the derived
rule R127); while disarmed, nothing. The other elements are as RECORD (R123) and COUNT_SAMPLE (R210) leave them. That SAMPLES wraps and
that the sample is counted after RECORD are the spec's decisions D10 and D12 (log entries 9 and 10). -/
def Obligations.StreamEmitsTheFilteredWord : Prop :=
  ∀ (s : State) (raw : ChannelWord), Memory.wf s.buf →
    (s.capture raw).tx = s.tx ++ (if s.armed then [s.filtered raw] else []) ∧
    s.capture raw = { s.record (s.filtered raw) with samples := s.samples + 1#32, tx := (s.capture raw).tx }

/-! ### Key events and the aggregator (43_session_telemetry.md) -/

/-- TOGGLE (R203), QUIT (R204) and OTHER (R205), one event each (how they are delivered is the spec's decision D17, log entry 10). -/
def Obligations.KeyEventsWriteTheirFlag : Prop :=
  ∀ (s : State) (code : Nat),
    s.keyEvent .toggle = { s with armed := !s.armed } ∧ s.keyEvent .quit = { s with running := false } ∧
    s.keyEvent (.other code) = s

/-- KEY_EVENTS (R206) on a whole list: ARMED is flipped once per TOGGLE, RUNNING is cleared if a QUIT stands anywhere in the list,
and nothing else changes. How key events are delivered is the spec's decision D17 (log entry 10). -/
def Obligations.KeyEventListFlipsArmedByParity : Prop :=
  ∀ (s : State) (keys : List KeyEvent),
    s.keyEvents keys =
      { s with
        armed := if keys.count .toggle % 2 = 1 then !s.armed else s.armed
        running := if .quit ∈ keys then false else s.running }

/-- TELEMETRY_TICK (R211): the frame carries the values before any reset, TICKS advances, and the fifth tick clears both counters
and TICKS together (R212). TICKS and what a frame holds are the spec's decisions D13 and D14 (log entries 8 and 11). -/
def Obligations.TelemetryTickEmitsThenResets : Prop :=
  ∀ s : State,
    s.telemetryTick =
      (if s.ticks + 1 = 5 then
        { s with frames := s.frames ++ [⟨s.samples, s.changes, s.tail 5⟩], samples := 0#32, changes := 0#32, ticks := 0 }
      else { s with frames := s.frames ++ [⟨s.samples, s.changes, s.tail 5⟩], ticks := s.ticks + 1 })

/-- The session transition table (R201): ARM arms, RESET and FINISH_NOW disarm, every other command keeps ARMED; TOGGLE flips it,
QUIT and OTHER keep it; a capture, a tick and an incomplete frame keep it. -/
def Obligations.SessionTransitionTable : Prop :=
  ∀ (s : State) (raw : ChannelWord) (code : Nat),
    (∀ (i : Instr) (t : State), exec i s = .next t →
      match i with
      | .arm _ => t.armed = true
      | .reset _ => t.armed = false
      | .finishNow _ => t.armed = false
      | _ => t.armed = s.armed) ∧
    (s.keyEvent .toggle).armed = !s.armed ∧ (s.keyEvent .quit).armed = s.armed ∧
    (s.keyEvent (.other code)).armed = s.armed ∧ (s.capture raw).armed = s.armed ∧ s.telemetryTick.armed = s.armed ∧
    (∀ (m : OpcodeMap) (op : Byte) (part : List Byte), op.getLsbD 7 = true → part.length < 4 →
      ∃ t, processChunk m (op :: part) s = .next t ∧ t.armed = s.armed)

/-! ### The iteration (44_iteration.md) -/

/-- A step of a running core runs the command its chunk decodes to: the record at the input port is taken, sub-steps 1 to 4 run,
then `exec` of the command, then the rest of the chunk, then sub-steps 6 and 7 (R231). That the record is the head of the state's
list of pending records is the model's choice (log entry 5), and that the keys come last is the spec's decision D17 (log entry 10).
The place of the sample count in sub-steps 1 to 4 is D12 (log entry 10). -/
def Obligations.StepRunsTheDecodedCommand : Prop :=
  ∀ (s : State) (inp : Input) (later : List Input) (bytes rest : List Byte) (i : Instr),
    s.running = true → s.inputs = inp :: later → inp.rx = some bytes → decode bytes = .command i rest →
    step s =
      andThen (exec i (({ s with inputs := later } : State).capture inp.raw)) fun t =>
        andThen (processChunk opcodeMap rest t) fun u => .next (u.finishIteration inp)

/-- A number of the opcode table that decodes to an instruction is run by the very next step from any running state it is presented
to, as the only command of its iteration (log entry 7). The record stands in the state's list (log entry 5). -/
def Obligations.PresentedFrameIsRunByTheNextStep : Prop :=
  ∀ (s : State) (nbits w : Nat) (i : Instr), s.running = true → decodeTableWord nbits w = some i →
    step (s.withFetchWord nbits w) = exec i (s.capture (s.current ^^^ s.invertMask))

/-- A running core completes its step on every input record: no stuck state and no fault (R234), under every opcode map. A halted core
has no step; that the check stands at the head of the iteration is the spec's decision D20, and that the missing step is answered by
the fault `halted`, and the record taken from the state's list, are the model's choices (log entries 5 and 6). -/
def Obligations.StepCompletesExactlyWhileRunning : Prop :=
  ∀ (m : OpcodeMap) (s : State) (inp : Input),
    (s.running = true → ∃ t, iterate m s inp = .next t) ∧
    (s.running = false → iterate m s inp = .fault .halted) ∧
    stepWith m s = iterate m s.consumeInput s.nextInput ∧ s.consumeInput.running = s.running

/-- Nothing in the core sets RUNNING back (R204, R266): after an iteration it is still true exactly when no QUIT was among the keys.
How key events are delivered is the spec's decision D17 (log entry 10). -/
def Obligations.OnlyQuitHaltsTheCore : Prop :=
  ∀ (m : OpcodeMap) (s t : State) (inp : Input), iterate m s inp = .next t →
    (t.running = true ↔ KeyEvent.quit ∉ inp.keys)

/-- After RECORD the latest stored word is the filtered word of the iteration, and with `RESET_CLEARS_CAPTURE` unset no later
sub-step writes BUF or IDX, so it still is at the end of the iteration (the derived rule R124). -/
def Obligations.LatestEntryIsThisIterationsWord : Prop :=
  ∀ (m : OpcodeMap) (s t : State) (inp : Input), Memory.wf s.buf → iterate m s inp = .next t →
    (s.record (s.filtered inp.raw)).current = s.filtered inp.raw ∧
    t.buf = (s.record (s.filtered inp.raw)).buf ∧
    (s.resetClearsCapture = false →
      t.idx = (s.record (s.filtered inp.raw)).idx ∧ t.current = s.filtered inp.raw)

/-- One iteration writes at most one entry of the buffer, the one after IDX (the derived rule R68), and only when the filtered word
differs from the latest entry; CHANGES advances with it (R123), unless the fifth tick of a period clears it in the same iteration
(R212), and so does IDX, unless `RESET_CLEARS_CAPTURE` lets a command of the chunk put it at 0. The wrap of CHANGES is the spec's
decision D10 (log entry 9). The phase of the fifth tick is the spec's decision D13 (log entry 8). -/
def Obligations.IterationWritesAtMostOneEntry : Prop :=
  ∀ (m : OpcodeMap) (s t : State) (inp : Input), Memory.wf s.buf → iterate m s inp = .next t →
    (∀ j : Index, t.entry j =
      if s.filtered inp.raw ≠ s.current ∧ j = s.idx + 1#8 then s.filtered inp.raw else s.entry j) ∧
    (¬ (inp.tick = true ∧ s.ticks + 1 = 5) →
      t.changes = if s.filtered inp.raw ≠ s.current then s.changes + 1#32 else s.changes) ∧
    (t.idx = (if s.filtered inp.raw ≠ s.current then s.idx + 1#8 else s.idx) ∨
      (s.resetClearsCapture = true ∧ t.idx = 0#8))

/-- The period reset (R212) clears SAMPLES and CHANGES together, on the tick that brings TICKS to 5, and nothing else clears either:
in every other iteration SAMPLES adds 1 (R210) and CHANGES adds 1 exactly on a recorded transition. The wrap modulo 2^32 and the
place of the sample count are the spec's decisions D10 and D12 (log entries 9 and 10). TICKS and the phase of the fifth tick are the
spec's decision D13 (log entry 8). -/
def Obligations.OnlyTheFifthTickClearsTheCounters : Prop :=
  ∀ (m : OpcodeMap) (s t : State) (inp : Input), iterate m s inp = .next t →
    (if inp.tick = true ∧ s.ticks + 1 = 5 then t.samples = 0#32 ∧ t.changes = 0#32 ∧ t.ticks = 0
     else t.samples = s.samples + 1#32 ∧
      t.changes = (if s.filtered inp.raw ≠ s.current then s.changes + 1#32 else s.changes) ∧
      t.ticks = if inp.tick then s.ticks + 1 else s.ticks)

/-- One telemetry frame per tick (R51): it carries the counts this iteration has brought, before any reset, and the tail counted
back from the IDX its commands leave (the frame's content is the spec's decision D14, log entry 11; the wrap of the counts D10, log
entry 9). That SAMPLES already counts this iteration is the place of the sample count before the tick (R231), the spec's decision
D12, and that the tail is read after the commands is D26 (log entry 10). -/
def Obligations.OneTelemetryFramePerTick : Prop :=
  ∀ (m : OpcodeMap) (s t : State) (inp : Input), iterate m s inp = .next t →
    t.frames = s.frames ++
      if inp.tick then
        [⟨s.samples + 1#32, if s.filtered inp.raw ≠ s.current then s.changes + 1#32 else s.changes, t.tail 5⟩]
      else []

/-- Within one iteration the streaming byte comes first and the command responses follow (the derived rule R74), and under one
opcode map the responses depend on the chunk alone: they are the same whatever the state, the raw word, the tick and the keys. The
filtered word is the derived rule R127's, that ARMED before the iteration decides the byte R126's, and that commands respond alike
in every state R170's. That the keys come after STREAM, so that they decide nothing of it, is the spec's decision D17 (log entry
10). -/
def Obligations.StreamByteComesBeforeResponses : Prop :=
  ∀ (m : OpcodeMap) (rx : Option (List Byte)), ∃ responses : List Byte, ∀ (s t : State) (inp : Input), inp.rx = rx →
    Memory.wf s.buf → iterate m s inp = .next t →
    t.tx = s.tx ++ (if s.armed then [s.filtered inp.raw] else []) ++ responses

/-- Latency of commands (the derived rule R291): the chunk, the tick and the keys of an iteration change nothing of what it records
or streams, so a new mask first filters the next iteration, an ARM first streams in it, and a RESET does not withdraw the byte
already streamed. With `RESET_CLEARS_CAPTURE` unset, two iterations with one raw word leave one IDX too. That the tick and the keys
come later in the iteration than RECORD and STREAM is R231's order; the keys' place in it, last, is the spec's decision D17 (log
entry 10). -/
def Obligations.CommandsActFromTheNextIteration : Prop :=
  ∀ (m : OpcodeMap) (s t t' : State) (inp inp' : Input), inp.raw = inp'.raw →
    iterate m s inp = .next t → iterate m s inp' = .next t' →
    t.buf = t'.buf ∧ (s.resetClearsCapture = false → t.idx = t'.idx) ∧
    (∃ own, t.tx = s.tx ++ (if s.armed then [(s.record (s.filtered inp.raw)).current] else []) ++ own) ∧
    (∃ own, t'.tx = s.tx ++ (if s.armed then [(s.record (s.filtered inp.raw)).current] else []) ++ own) ∧
    (inp.rx = none → t.tx = s.tx ++ if s.armed then [(s.record (s.filtered inp.raw)).current] else [])

/-- A mask change can record a transition on its own (the derived rule R292), under every legal opcode map: with the raw word
constant, the iteration after a TRIGGER_MASK or TRIGGER_VALUES advances IDX and counts a change exactly when the word filtered with
the new masks differs from the stored one. That the count wraps is the spec's decision D10 (log entry 9). -/
def Obligations.MaskChangeCanRecordTransition : Prop :=
  ∀ (m : OpcodeMap) (s t u : State) (raw : ChannelWord) (a : Word) (i : Instr), OpcodeMap.Legal m → Memory.wf s.buf →
    i = .triggerMask a ∨ i = .triggerValues a →
    iterate m s ⟨raw, some (encodeWith m i), false, []⟩ = .next t →
    iterate m t ⟨raw, none, false, []⟩ = .next u →
    t.current = s.filtered raw ∧
    (i = .triggerMask a → t.enableMask = a.extractLsb' 24 8 ∧ t.invertMask = s.invertMask) ∧
    (i = .triggerValues a → t.invertMask = a.extractLsb' 24 8 ∧ t.enableMask = s.enableMask) ∧
    (if filterWord raw t.invertMask t.enableMask = s.filtered raw then u.idx = t.idx ∧ u.changes = t.changes
     else u.idx = t.idx + 1#8 ∧ u.changes = t.changes + 1#32)

/-- The key events of an iteration run after its commands (the derived rule R296; their place is the spec's decision D17, log entry
10), under every legal opcode map: a TOGGLE cancels an ARM of the same iteration, and a TOGGLE after a RESET or a FINISH_NOW
re-arms. The three commands act as R171 to R173 say, the key as R203. -/
def Obligations.ToggleRunsAfterTheCommands : Prop :=
  ∀ (m : OpcodeMap) (s t : State) (raw : ChannelWord) (tick : Bool) (arg : Option Word) (i : Instr), OpcodeMap.Legal m →
    i.wfWith m = true → i = .arm arg ∨ i = .reset arg ∨ i = .finishNow arg →
    iterate m s ⟨raw, some (encodeWith m i), tick, [.toggle]⟩ = .next t →
    t.armed = (if i = .arm arg then false else true)

/-! ### Reset (10_state.md section 3, 70_reset_and_hazards.md) -/

/-- The power-on reset values of R53's table. The zero entries, RUNNING, SAMPLES, CHANGES and TICKS are the spec's decisions D8, D9, D10
and D13 (log entry 8). -/
def Obligations.PowerOnResetValues : Prop :=
  (∀ i : Index, State.reset.entry i = 0x00#8) ∧ State.reset.idx = 0#8 ∧ State.reset.armed = false ∧
  State.reset.enableMask = 0xFF#8 ∧ State.reset.invertMask = 0x00#8 ∧ State.reset.running = true ∧
  State.reset.samples = 0#32 ∧ State.reset.changes = 0#32 ∧ State.reset.ticks = 0 ∧
  State.reset.tx = [] ∧ State.reset.diag = [] ∧ State.reset.frames = []

/-- No state survives a restart (R54): whatever two states the cores were in, after a restart they are alike in every element of the
core, disarmed and with the mask defaults, and a second restart changes nothing. That a restart is an operation which leaves the
environment's two fields and the parameter alone is the model's choice (log entry 12). -/
def Obligations.NoStateSurvivesRestart : Prop :=
  ∀ s t : State,
    s.restart =
      { t.restart with inputs := s.inputs, drawn := s.drawn, resetClearsCapture := s.resetClearsCapture } ∧
    s.restart.restart = s.restart ∧
    s.restart.armed = false ∧ s.restart.enableMask = 0xFF#8 ∧ s.restart.invertMask = 0x00#8

/-- The reset state meets the invariant. TICKS and the reset values the source does not give are the spec's decisions D8 and D13
(log entry 8). -/
def Obligations.ResetMeetsTheInvariant : Prop := State.reset.Inv

/-! ### The whole machine -/

/-- Every step, under every opcode map, keeps the invariant: the buffer stays in canonical form within its 256 entries (R60), TICKS
stays in 0 to 4 (R39), every telemetry frame has five tail entries (R51), and every diagnostic is one of R50's. No step writes the
parameter `RESET_CLEARS_CAPTURE`; that it stands in the state is the model's choice (log entry 2). The phase counter TICKS is the
spec's decision D13 (log entry 8), and the form of frames and diagnostics its decisions D14, D15 and D28 (log entry 11). -/
def Obligations.EveryStepKeepsTheInvariant : Prop :=
  ∀ (m : OpcodeMap) (s t : State), s.Inv → stepWith m s = .next t →
    t.Inv ∧ t.resetClearsCapture = s.resetClearsCapture

/-- CHANGES never exceeds SAMPLES (the derived rule R213), as long as SAMPLES does not wrap in the iteration: both start at 0, and
every iteration keeps it. The values 0 at power-on and the wrap are the spec's decision D10 (log entries 8 and 9), and the phase of
the fifth tick is D13 (log entry 8). -/
def Obligations.ChangesNeverExceedSamples : Prop :=
  State.reset.changes = 0#32 ∧ State.reset.samples = 0#32 ∧
  ∀ (m : OpcodeMap) (s t : State) (inp : Input), s.changes ≤ s.samples → s.samples ≠ 0xFFFFFFFF#32 →
    iterate m s inp = .next t → t.changes ≤ t.samples

/-- Age order of entries (the derived rule R70): reset is aged by the baseline alone, and every iteration either stores nothing or
adds the filtered word as the newest of the stored words; so the last 256 stored words are always the ones behind IDX (R295). That
every entry is 0x00 at power-on, the baseline among them, is the spec's decision D8 (log entry 8). -/
def Obligations.BufferHoldsTheLastStoredWords : Prop :=
  State.reset.Aged [0x00#8] ∧
  ∀ (m : OpcodeMap) (s t : State) (inp : Input) (words : List ChannelWord), s.Inv → s.resetClearsCapture = false →
    s.Aged words → iterate m s inp = .next t →
    t.Aged (if some (s.filtered inp.raw) = words.head? then words else s.filtered inp.raw :: words)

/-- Capture never pauses (R128): ARMED decides nothing but the streaming byte. In every iteration RECORD runs on the filtered word
and the sample is counted, whatever ARMED holds; and two runs of one iteration, from states that differ in ARMED and TX alone, end
in states that differ in ARMED and TX alone, where TX has grown in each by its streaming byte, if it was armed, and by the same
responses. The wrap of the counts and the place of the sample count are the spec's decisions D10 and D12 (log entries 9 and 10). The
phase of the fifth tick is D13 (log entry 8), and the place of the keys, after STREAM, D17 (log entry 10). -/
def Obligations.ArmedGatesTheStreamAlone : Prop :=
  ∀ (m : OpcodeMap) (s t t' : State) (armed : Bool) (tx : List Byte) (inp : Input), Memory.wf s.buf →
    iterate m s inp = .next t → iterate m { s with armed := armed, tx := tx } inp = .next t' →
    t' = { t with armed := t'.armed, tx := t'.tx } ∧
    (∃ responses : List Byte,
      t.tx = s.tx ++ (if s.armed then [s.filtered inp.raw] else []) ++ responses ∧
      t'.tx = tx ++ (if armed then [s.filtered inp.raw] else []) ++ responses) ∧
    t.buf = (s.record (s.filtered inp.raw)).buf ∧
    (s.resetClearsCapture = false → t.idx = (s.record (s.filtered inp.raw)).idx) ∧
    (¬ (inp.tick = true ∧ s.ticks + 1 = 5) →
      t.changes = (s.record (s.filtered inp.raw)).changes ∧ t.samples = s.samples + 1#32)

/-- No rule reads TX, DIAG or FRAMES back (R30): replacing what they hold before an iteration changes no element of S, and the
iteration appends to them what it would have appended anyway. The form of the output sequences is the spec's decisions D14 and D15
(log entry 11). -/
def Obligations.OutputsAreNeverReadBack : Prop :=
  ∀ (m : OpcodeMap) (s t : State) (tx : List Byte) (diag : List DiagEvent) (frames : List Frame) (inp : Input),
    iterate m s inp = .next t →
    ∃ (dtx : List Byte) (ddiag : List DiagEvent) (dframes : List Frame),
      t.tx = s.tx ++ dtx ∧ t.diag = s.diag ++ ddiag ∧ t.frames = s.frames ++ dframes ∧
      iterate m { s with tx := tx, diag := diag, frames := frames } inp =
        .next { t with tx := tx ++ dtx, diag := diag ++ ddiag, frames := frames ++ dframes }

/-- The only end of a run is the halted state (R234): every state a run reaches has a next step unless it is halted, nothing but
that step's absence is a stop, and a halted state is never left (R266). That the absence of a step is answered by the fault `halted`
is the model's choice (log entry 6). The check at the head of the iteration is the spec's decision D20, and a run takes its records
from the state's list or free ones (log entry 5). -/
def Obligations.TheOnlyEndOfARunIsHalted : Prop :=
  ∀ s t : State, s.Inv → Reaches s t →
    t.Inv ∧ Safe (step t) ∧ (step t = .fault .halted ↔ t.Halted) ∧ (t.Halted ↔ ∀ u, Reaches t u → u = t)
end

