-- ==== Sys2Proof/Laws/Memory.lean ====
section
/-! SUPPORT. The capture buffer: read after write, the canonical form is kept, and equal buffers are equal data. -/

namespace Sys2Proof.Machine

open Sys2Proof

/-- Indexes of the pairs rise strictly. -/
abbrev Memory.sorted (m : Memory) : Prop := m.Pairwise fun x y => x.1 < y.1

theorem Memory.read_eq_unlisted {m : Memory} {a : Nat} (h : ∀ c ∈ m, a < c.1) : Memory.read m a = unlisted := by
  induction m with
  | nil => rfl
  | cons c rest ih =>
    have hc : c.1 ≠ a := by
      have := h c (by simp)
      omega
    rw [Memory.read, if_neg hc]
    exact ih fun d hd => h d (by simp [hd])

theorem Memory.read_write_same {m : Memory} (hs : m.sorted) (a : Nat) (v : Byte) :
    Memory.read (Memory.write m a v) a = v := by
  induction m with
  | nil => simp only [Memory.write]; split <;> simp_all [Memory.read]
  | cons c rest ih =>
    obtain ⟨hc, hrest⟩ := List.pairwise_cons.mp hs
    simp only [Memory.write]
    by_cases h1 : a < c.1
    · rw [if_pos h1]
      split
      · rename_i hv
        rw [hv]
        refine Memory.read_eq_unlisted fun d hd => ?_
        rcases List.mem_cons.mp hd with rfl | hd
        · exact h1
        · exact h1.trans (hc d hd)
      · simp [Memory.read]
    · rw [if_neg h1]
      by_cases h2 : a = c.1
      · rw [if_pos h2]
        split
        · rename_i hv
          rw [hv]
          exact Memory.read_eq_unlisted fun d hd => h2 ▸ hc d hd
        · simp [Memory.read]
      · rw [if_neg h2, Memory.read, if_neg (fun h => h2 h.symm)]
        exact ih hrest

theorem Memory.read_write_other {m : Memory} {a b : Nat} (hab : b ≠ a) (v : Byte) :
    Memory.read (Memory.write m a v) b = Memory.read m b := by
  have hba : ¬ a = b := fun h => hab h.symm
  induction m with
  | nil => simp only [Memory.write]; split <;> simp [Memory.read, hba]
  | cons c rest ih =>
    simp only [Memory.write]
    split
    · split <;> simp [Memory.read, hba]
    · split
      · rename_i hac
        have hcb : ¬ c.1 = b := fun h => hba (hac.trans h)
        split <;> simp [Memory.read, hba, hcb]
      · simp [Memory.read, ih]

theorem Memory.mem_write {m : Memory} {a : Nat} {v : Byte} {c : Host.Cell} (h : c ∈ Memory.write m a v) :
    (c = (a, v) ∧ v ≠ unlisted) ∨ c ∈ m := by
  induction m with
  | nil =>
    simp only [Memory.write] at h
    split at h
    · simp at h
    · exact .inl ⟨by simpa using h, ‹_›⟩
  | cons d rest ih =>
    simp only [Memory.write] at h
    split at h
    · split at h
      · exact .inr h
      · rcases List.mem_cons.mp h with rfl | h
        · exact .inl ⟨rfl, ‹_›⟩
        · exact .inr h
    · split at h
      · split at h
        · exact .inr (List.mem_cons_of_mem _ h)
        · rcases List.mem_cons.mp h with rfl | h
          · exact .inl ⟨rfl, ‹_›⟩
          · exact .inr (List.mem_cons_of_mem _ h)
      · rcases List.mem_cons.mp h with rfl | h
        · exact .inr (by simp)
        · rcases ih h with h | h
          · exact .inl h
          · exact .inr (List.mem_cons_of_mem _ h)

theorem Memory.write_sorted {m : Memory} (hs : m.sorted) (a : Nat) (v : Byte) : (Memory.write m a v).sorted := by
  induction m with
  | nil => simp only [Memory.write]; split <;> simp [Memory.sorted]
  | cons c rest ih =>
    obtain ⟨hc, hrest⟩ := List.pairwise_cons.mp hs
    simp only [Memory.write]
    split
    · rename_i h1
      split
      · exact hs
      · refine List.pairwise_cons.mpr ⟨fun d hd => ?_, hs⟩
        rcases List.mem_cons.mp hd with rfl | hd
        · exact h1
        · exact h1.trans (hc d hd)
    · split
      · rename_i h2
        split
        · exact hrest
        · exact List.pairwise_cons.mpr ⟨fun d hd => h2 ▸ hc d hd, hrest⟩
      · refine List.pairwise_cons.mpr ⟨fun d hd => ?_, ih hrest⟩
        rcases Memory.mem_write hd with ⟨rfl, -⟩ | hd
        · show c.1 < a
          omega
        · exact hc d hd

/-- Every write at an index of the buffer keeps the canonical form. -/
theorem Memory.write_wf {m : Memory} (hm : Memory.wf m) {a : Nat} (ha : a < Config.bufferEntries) (v : Byte) :
    Memory.wf (Memory.write m a v) := by
  refine ⟨Memory.write_sorted hm.1 a v, fun c hc => ?_⟩
  rcases Memory.mem_write hc with ⟨rfl, hv⟩ | hc
  · exact ⟨ha, hv⟩
  · exact hm.2 c hc

theorem Memory.nil_wf : Memory.wf [] := ⟨.nil, by simp⟩

theorem Memory.read_of_mem {m : Memory} (hs : m.sorted) {c : Host.Cell} (hc : c ∈ m) : Memory.read m c.1 = c.2 := by
  induction m with
  | nil => simp at hc
  | cons d rest ih =>
    obtain ⟨hd, hrest⟩ := List.pairwise_cons.mp hs
    rcases List.mem_cons.mp hc with rfl | hc
    · simp [Memory.read]
    · have := hd c hc
      rw [Memory.read, if_neg (by omega)]
      exact ih hrest hc

end Sys2Proof.Machine
end

