-- ==== Sys2Proof/Laws/State.lean ====
section
/-! SUPPORT. One lemma per field per update of the state, so that no later proof unfolds a record update. -/

namespace Sys2Proof.Machine

open Sys2Proof

/-! ### `BUF[i] <- v` -/

@[simp] theorem State.setEntry_buf (s : State) (i : Index) (v : ChannelWord) : (s.setEntry i v).buf = Memory.write s.buf i.toNat (wireByte v) := rfl
@[simp] theorem State.setEntry_idx (s : State) (i : Index) (v : ChannelWord) : (s.setEntry i v).idx = s.idx := rfl
@[simp] theorem State.setEntry_armed (s : State) (i : Index) (v : ChannelWord) : (s.setEntry i v).armed = s.armed := rfl
@[simp] theorem State.setEntry_enableMask (s : State) (i : Index) (v : ChannelWord) : (s.setEntry i v).enableMask = s.enableMask := rfl
@[simp] theorem State.setEntry_invertMask (s : State) (i : Index) (v : ChannelWord) : (s.setEntry i v).invertMask = s.invertMask := rfl
@[simp] theorem State.setEntry_running (s : State) (i : Index) (v : ChannelWord) : (s.setEntry i v).running = s.running := rfl
@[simp] theorem State.setEntry_samples (s : State) (i : Index) (v : ChannelWord) : (s.setEntry i v).samples = s.samples := rfl
@[simp] theorem State.setEntry_changes (s : State) (i : Index) (v : ChannelWord) : (s.setEntry i v).changes = s.changes := rfl
@[simp] theorem State.setEntry_ticks (s : State) (i : Index) (v : ChannelWord) : (s.setEntry i v).ticks = s.ticks := rfl
@[simp] theorem State.setEntry_tx (s : State) (i : Index) (v : ChannelWord) : (s.setEntry i v).tx = s.tx := rfl
@[simp] theorem State.setEntry_diag (s : State) (i : Index) (v : ChannelWord) : (s.setEntry i v).diag = s.diag := rfl
@[simp] theorem State.setEntry_frames (s : State) (i : Index) (v : ChannelWord) : (s.setEntry i v).frames = s.frames := rfl
@[simp] theorem State.setEntry_inputs (s : State) (i : Index) (v : ChannelWord) : (s.setEntry i v).inputs = s.inputs := rfl
@[simp] theorem State.setEntry_drawn (s : State) (i : Index) (v : ChannelWord) : (s.setEntry i v).drawn = s.drawn := rfl
@[simp] theorem State.setEntry_resetClearsCapture (s : State) (i : Index) (v : ChannelWord) : (s.setEntry i v).resetClearsCapture = s.resetClearsCapture := rfl

/-! ### `emit_tx` -/

@[simp] theorem State.emitTx_buf (s : State) (b : Byte) : (s.emitTx b).buf = s.buf := rfl
@[simp] theorem State.emitTx_idx (s : State) (b : Byte) : (s.emitTx b).idx = s.idx := rfl
@[simp] theorem State.emitTx_armed (s : State) (b : Byte) : (s.emitTx b).armed = s.armed := rfl
@[simp] theorem State.emitTx_enableMask (s : State) (b : Byte) : (s.emitTx b).enableMask = s.enableMask := rfl
@[simp] theorem State.emitTx_invertMask (s : State) (b : Byte) : (s.emitTx b).invertMask = s.invertMask := rfl
@[simp] theorem State.emitTx_running (s : State) (b : Byte) : (s.emitTx b).running = s.running := rfl
@[simp] theorem State.emitTx_samples (s : State) (b : Byte) : (s.emitTx b).samples = s.samples := rfl
@[simp] theorem State.emitTx_changes (s : State) (b : Byte) : (s.emitTx b).changes = s.changes := rfl
@[simp] theorem State.emitTx_ticks (s : State) (b : Byte) : (s.emitTx b).ticks = s.ticks := rfl
@[simp] theorem State.emitTx_tx (s : State) (b : Byte) : (s.emitTx b).tx = s.tx ++ [b] := rfl
@[simp] theorem State.emitTx_diag (s : State) (b : Byte) : (s.emitTx b).diag = s.diag := rfl
@[simp] theorem State.emitTx_frames (s : State) (b : Byte) : (s.emitTx b).frames = s.frames := rfl
@[simp] theorem State.emitTx_inputs (s : State) (b : Byte) : (s.emitTx b).inputs = s.inputs := rfl
@[simp] theorem State.emitTx_drawn (s : State) (b : Byte) : (s.emitTx b).drawn = s.drawn := rfl
@[simp] theorem State.emitTx_resetClearsCapture (s : State) (b : Byte) : (s.emitTx b).resetClearsCapture = s.resetClearsCapture := rfl

/-! ### `emit_diag` -/

@[simp] theorem State.emitDiag_buf (s : State) (e : DiagEvent) : (s.emitDiag e).buf = s.buf := rfl
@[simp] theorem State.emitDiag_idx (s : State) (e : DiagEvent) : (s.emitDiag e).idx = s.idx := rfl
@[simp] theorem State.emitDiag_armed (s : State) (e : DiagEvent) : (s.emitDiag e).armed = s.armed := rfl
@[simp] theorem State.emitDiag_enableMask (s : State) (e : DiagEvent) : (s.emitDiag e).enableMask = s.enableMask := rfl
@[simp] theorem State.emitDiag_invertMask (s : State) (e : DiagEvent) : (s.emitDiag e).invertMask = s.invertMask := rfl
@[simp] theorem State.emitDiag_running (s : State) (e : DiagEvent) : (s.emitDiag e).running = s.running := rfl
@[simp] theorem State.emitDiag_samples (s : State) (e : DiagEvent) : (s.emitDiag e).samples = s.samples := rfl
@[simp] theorem State.emitDiag_changes (s : State) (e : DiagEvent) : (s.emitDiag e).changes = s.changes := rfl
@[simp] theorem State.emitDiag_ticks (s : State) (e : DiagEvent) : (s.emitDiag e).ticks = s.ticks := rfl
@[simp] theorem State.emitDiag_tx (s : State) (e : DiagEvent) : (s.emitDiag e).tx = s.tx := rfl
@[simp] theorem State.emitDiag_diag (s : State) (e : DiagEvent) : (s.emitDiag e).diag = s.diag ++ [e] := rfl
@[simp] theorem State.emitDiag_frames (s : State) (e : DiagEvent) : (s.emitDiag e).frames = s.frames := rfl
@[simp] theorem State.emitDiag_inputs (s : State) (e : DiagEvent) : (s.emitDiag e).inputs = s.inputs := rfl
@[simp] theorem State.emitDiag_drawn (s : State) (e : DiagEvent) : (s.emitDiag e).drawn = s.drawn := rfl
@[simp] theorem State.emitDiag_resetClearsCapture (s : State) (e : DiagEvent) : (s.emitDiag e).resetClearsCapture = s.resetClearsCapture := rfl

/-! ### `emit_frame` -/

@[simp] theorem State.emitFrame_buf (s : State) (f : Frame) : (s.emitFrame f).buf = s.buf := rfl
@[simp] theorem State.emitFrame_idx (s : State) (f : Frame) : (s.emitFrame f).idx = s.idx := rfl
@[simp] theorem State.emitFrame_armed (s : State) (f : Frame) : (s.emitFrame f).armed = s.armed := rfl
@[simp] theorem State.emitFrame_enableMask (s : State) (f : Frame) : (s.emitFrame f).enableMask = s.enableMask := rfl
@[simp] theorem State.emitFrame_invertMask (s : State) (f : Frame) : (s.emitFrame f).invertMask = s.invertMask := rfl
@[simp] theorem State.emitFrame_running (s : State) (f : Frame) : (s.emitFrame f).running = s.running := rfl
@[simp] theorem State.emitFrame_samples (s : State) (f : Frame) : (s.emitFrame f).samples = s.samples := rfl
@[simp] theorem State.emitFrame_changes (s : State) (f : Frame) : (s.emitFrame f).changes = s.changes := rfl
@[simp] theorem State.emitFrame_ticks (s : State) (f : Frame) : (s.emitFrame f).ticks = s.ticks := rfl
@[simp] theorem State.emitFrame_tx (s : State) (f : Frame) : (s.emitFrame f).tx = s.tx := rfl
@[simp] theorem State.emitFrame_diag (s : State) (f : Frame) : (s.emitFrame f).diag = s.diag := rfl
@[simp] theorem State.emitFrame_frames (s : State) (f : Frame) : (s.emitFrame f).frames = s.frames ++ [f] := rfl
@[simp] theorem State.emitFrame_inputs (s : State) (f : Frame) : (s.emitFrame f).inputs = s.inputs := rfl
@[simp] theorem State.emitFrame_drawn (s : State) (f : Frame) : (s.emitFrame f).drawn = s.drawn := rfl
@[simp] theorem State.emitFrame_resetClearsCapture (s : State) (f : Frame) : (s.emitFrame f).resetClearsCapture = s.resetClearsCapture := rfl

/-! ### `raise` -/

@[simp] theorem State.raise_buf (s : State) (e : DiagEvent) : (s.raise e).buf = s.buf := rfl
@[simp] theorem State.raise_idx (s : State) (e : DiagEvent) : (s.raise e).idx = s.idx := rfl
@[simp] theorem State.raise_armed (s : State) (e : DiagEvent) : (s.raise e).armed = s.armed := rfl
@[simp] theorem State.raise_enableMask (s : State) (e : DiagEvent) : (s.raise e).enableMask = s.enableMask := rfl
@[simp] theorem State.raise_invertMask (s : State) (e : DiagEvent) : (s.raise e).invertMask = s.invertMask := rfl
@[simp] theorem State.raise_running (s : State) (e : DiagEvent) : (s.raise e).running = s.running := rfl
@[simp] theorem State.raise_samples (s : State) (e : DiagEvent) : (s.raise e).samples = s.samples := rfl
@[simp] theorem State.raise_changes (s : State) (e : DiagEvent) : (s.raise e).changes = s.changes := rfl
@[simp] theorem State.raise_ticks (s : State) (e : DiagEvent) : (s.raise e).ticks = s.ticks := rfl
@[simp] theorem State.raise_tx (s : State) (e : DiagEvent) : (s.raise e).tx = s.tx := rfl
@[simp] theorem State.raise_diag (s : State) (e : DiagEvent) : (s.raise e).diag = s.diag ++ [e] := rfl
@[simp] theorem State.raise_frames (s : State) (e : DiagEvent) : (s.raise e).frames = s.frames := rfl
@[simp] theorem State.raise_inputs (s : State) (e : DiagEvent) : (s.raise e).inputs = s.inputs := rfl
@[simp] theorem State.raise_drawn (s : State) (e : DiagEvent) : (s.raise e).drawn = s.drawn := rfl
@[simp] theorem State.raise_resetClearsCapture (s : State) (e : DiagEvent) : (s.raise e).resetClearsCapture = s.resetClearsCapture := rfl

/-! ### `ARMED <- true` -/

@[simp] theorem State.arm_buf (s : State) : (s.arm).buf = s.buf := rfl
@[simp] theorem State.arm_idx (s : State) : (s.arm).idx = s.idx := rfl
@[simp] theorem State.arm_armed (s : State) : (s.arm).armed = true := rfl
@[simp] theorem State.arm_enableMask (s : State) : (s.arm).enableMask = s.enableMask := rfl
@[simp] theorem State.arm_invertMask (s : State) : (s.arm).invertMask = s.invertMask := rfl
@[simp] theorem State.arm_running (s : State) : (s.arm).running = s.running := rfl
@[simp] theorem State.arm_samples (s : State) : (s.arm).samples = s.samples := rfl
@[simp] theorem State.arm_changes (s : State) : (s.arm).changes = s.changes := rfl
@[simp] theorem State.arm_ticks (s : State) : (s.arm).ticks = s.ticks := rfl
@[simp] theorem State.arm_tx (s : State) : (s.arm).tx = s.tx := rfl
@[simp] theorem State.arm_diag (s : State) : (s.arm).diag = s.diag := rfl
@[simp] theorem State.arm_frames (s : State) : (s.arm).frames = s.frames := rfl
@[simp] theorem State.arm_inputs (s : State) : (s.arm).inputs = s.inputs := rfl
@[simp] theorem State.arm_drawn (s : State) : (s.arm).drawn = s.drawn := rfl
@[simp] theorem State.arm_resetClearsCapture (s : State) : (s.arm).resetClearsCapture = s.resetClearsCapture := rfl

/-! ### `ARMED <- false` -/

@[simp] theorem State.disarm_buf (s : State) : (s.disarm).buf = s.buf := rfl
@[simp] theorem State.disarm_idx (s : State) : (s.disarm).idx = s.idx := rfl
@[simp] theorem State.disarm_armed (s : State) : (s.disarm).armed = false := rfl
@[simp] theorem State.disarm_enableMask (s : State) : (s.disarm).enableMask = s.enableMask := rfl
@[simp] theorem State.disarm_invertMask (s : State) : (s.disarm).invertMask = s.invertMask := rfl
@[simp] theorem State.disarm_running (s : State) : (s.disarm).running = s.running := rfl
@[simp] theorem State.disarm_samples (s : State) : (s.disarm).samples = s.samples := rfl
@[simp] theorem State.disarm_changes (s : State) : (s.disarm).changes = s.changes := rfl
@[simp] theorem State.disarm_ticks (s : State) : (s.disarm).ticks = s.ticks := rfl
@[simp] theorem State.disarm_tx (s : State) : (s.disarm).tx = s.tx := rfl
@[simp] theorem State.disarm_diag (s : State) : (s.disarm).diag = s.diag := rfl
@[simp] theorem State.disarm_frames (s : State) : (s.disarm).frames = s.frames := rfl
@[simp] theorem State.disarm_inputs (s : State) : (s.disarm).inputs = s.inputs := rfl
@[simp] theorem State.disarm_drawn (s : State) : (s.disarm).drawn = s.drawn := rfl
@[simp] theorem State.disarm_resetClearsCapture (s : State) : (s.disarm).resetClearsCapture = s.resetClearsCapture := rfl

/-! ### `ARMED <- !ARMED` -/

@[simp] theorem State.toggleArmed_buf (s : State) : (s.toggleArmed).buf = s.buf := rfl
@[simp] theorem State.toggleArmed_idx (s : State) : (s.toggleArmed).idx = s.idx := rfl
@[simp] theorem State.toggleArmed_armed (s : State) : (s.toggleArmed).armed = !s.armed := rfl
@[simp] theorem State.toggleArmed_enableMask (s : State) : (s.toggleArmed).enableMask = s.enableMask := rfl
@[simp] theorem State.toggleArmed_invertMask (s : State) : (s.toggleArmed).invertMask = s.invertMask := rfl
@[simp] theorem State.toggleArmed_running (s : State) : (s.toggleArmed).running = s.running := rfl
@[simp] theorem State.toggleArmed_samples (s : State) : (s.toggleArmed).samples = s.samples := rfl
@[simp] theorem State.toggleArmed_changes (s : State) : (s.toggleArmed).changes = s.changes := rfl
@[simp] theorem State.toggleArmed_ticks (s : State) : (s.toggleArmed).ticks = s.ticks := rfl
@[simp] theorem State.toggleArmed_tx (s : State) : (s.toggleArmed).tx = s.tx := rfl
@[simp] theorem State.toggleArmed_diag (s : State) : (s.toggleArmed).diag = s.diag := rfl
@[simp] theorem State.toggleArmed_frames (s : State) : (s.toggleArmed).frames = s.frames := rfl
@[simp] theorem State.toggleArmed_inputs (s : State) : (s.toggleArmed).inputs = s.inputs := rfl
@[simp] theorem State.toggleArmed_drawn (s : State) : (s.toggleArmed).drawn = s.drawn := rfl
@[simp] theorem State.toggleArmed_resetClearsCapture (s : State) : (s.toggleArmed).resetClearsCapture = s.resetClearsCapture := rfl

/-! ### `RUNNING <- false` -/

@[simp] theorem State.quit_buf (s : State) : (s.quit).buf = s.buf := rfl
@[simp] theorem State.quit_idx (s : State) : (s.quit).idx = s.idx := rfl
@[simp] theorem State.quit_armed (s : State) : (s.quit).armed = s.armed := rfl
@[simp] theorem State.quit_enableMask (s : State) : (s.quit).enableMask = s.enableMask := rfl
@[simp] theorem State.quit_invertMask (s : State) : (s.quit).invertMask = s.invertMask := rfl
@[simp] theorem State.quit_running (s : State) : (s.quit).running = false := rfl
@[simp] theorem State.quit_samples (s : State) : (s.quit).samples = s.samples := rfl
@[simp] theorem State.quit_changes (s : State) : (s.quit).changes = s.changes := rfl
@[simp] theorem State.quit_ticks (s : State) : (s.quit).ticks = s.ticks := rfl
@[simp] theorem State.quit_tx (s : State) : (s.quit).tx = s.tx := rfl
@[simp] theorem State.quit_diag (s : State) : (s.quit).diag = s.diag := rfl
@[simp] theorem State.quit_frames (s : State) : (s.quit).frames = s.frames := rfl
@[simp] theorem State.quit_inputs (s : State) : (s.quit).inputs = s.inputs := rfl
@[simp] theorem State.quit_drawn (s : State) : (s.quit).drawn = s.drawn := rfl
@[simp] theorem State.quit_resetClearsCapture (s : State) : (s.quit).resetClearsCapture = s.resetClearsCapture := rfl

/-! ### COUNT_SAMPLE -/

@[simp] theorem State.countSample_buf (s : State) : (s.countSample).buf = s.buf := rfl
@[simp] theorem State.countSample_idx (s : State) : (s.countSample).idx = s.idx := rfl
@[simp] theorem State.countSample_armed (s : State) : (s.countSample).armed = s.armed := rfl
@[simp] theorem State.countSample_enableMask (s : State) : (s.countSample).enableMask = s.enableMask := rfl
@[simp] theorem State.countSample_invertMask (s : State) : (s.countSample).invertMask = s.invertMask := rfl
@[simp] theorem State.countSample_running (s : State) : (s.countSample).running = s.running := rfl
@[simp] theorem State.countSample_samples (s : State) : (s.countSample).samples = s.samples + 1#32 := rfl
@[simp] theorem State.countSample_changes (s : State) : (s.countSample).changes = s.changes := rfl
@[simp] theorem State.countSample_ticks (s : State) : (s.countSample).ticks = s.ticks := rfl
@[simp] theorem State.countSample_tx (s : State) : (s.countSample).tx = s.tx := rfl
@[simp] theorem State.countSample_diag (s : State) : (s.countSample).diag = s.diag := rfl
@[simp] theorem State.countSample_frames (s : State) : (s.countSample).frames = s.frames := rfl
@[simp] theorem State.countSample_inputs (s : State) : (s.countSample).inputs = s.inputs := rfl
@[simp] theorem State.countSample_drawn (s : State) : (s.countSample).drawn = s.drawn := rfl
@[simp] theorem State.countSample_resetClearsCapture (s : State) : (s.countSample).resetClearsCapture = s.resetClearsCapture := rfl

/-! ### the restart -/

@[simp] theorem State.restart_buf (s : State) : (s.restart).buf = [] := rfl
@[simp] theorem State.restart_idx (s : State) : (s.restart).idx = 0#8 := rfl
@[simp] theorem State.restart_armed (s : State) : (s.restart).armed = false := rfl
@[simp] theorem State.restart_enableMask (s : State) : (s.restart).enableMask = Config.enableDefault := rfl
@[simp] theorem State.restart_invertMask (s : State) : (s.restart).invertMask = Config.invertDefault := rfl
@[simp] theorem State.restart_running (s : State) : (s.restart).running = true := rfl
@[simp] theorem State.restart_samples (s : State) : (s.restart).samples = 0#32 := rfl
@[simp] theorem State.restart_changes (s : State) : (s.restart).changes = 0#32 := rfl
@[simp] theorem State.restart_ticks (s : State) : (s.restart).ticks = 0 := rfl
@[simp] theorem State.restart_tx (s : State) : (s.restart).tx = [] := rfl
@[simp] theorem State.restart_diag (s : State) : (s.restart).diag = [] := rfl
@[simp] theorem State.restart_frames (s : State) : (s.restart).frames = [] := rfl
@[simp] theorem State.restart_inputs (s : State) : (s.restart).inputs = s.inputs := rfl
@[simp] theorem State.restart_drawn (s : State) : (s.restart).drawn = s.drawn := rfl
@[simp] theorem State.restart_resetClearsCapture (s : State) : (s.restart).resetClearsCapture = s.resetClearsCapture := rfl

/-! ### Reading the buffer looks at BUF and IDX alone -/

theorem State.entry_congr {s t : State} (h : t.buf = s.buf) (i : Index) : t.entry i = s.entry i := by
  simp [State.entry, h]

theorem State.current_congr {s t : State} (hb : t.buf = s.buf) (hi : t.idx = s.idx) : t.current = s.current := by
  simp [State.current, State.entry, hb, hi]

theorem State.tail_congr {s t : State} (hb : t.buf = s.buf) (hi : t.idx = s.idx) (n : Nat) : t.tail n = s.tail n := by
  simp [State.tail, State.entry, hb, hi]

/-- `for j: emit_tx(b[j])` appends the bytes in order and touches nothing else. -/
theorem State.emitTxAll_eq (s : State) (bytes : List Byte) : s.emitTxAll bytes = { s with tx := s.tx ++ bytes } := by
  unfold State.emitTxAll
  induction bytes generalizing s with
  | nil => simp
  | cons b bs ih => simp [ih, State.emitTx]

/-! ### A ChannelWord is one byte wide (W = 8), so it is stored and sent as it is -/

@[simp] theorem wireByte_eq (w : ChannelWord) : wireByte w = w := BitVec.setWidth_eq w

@[simp] theorem channelWordOf_eq (b : Byte) : channelWordOf b = b := BitVec.setWidth_eq b

/-- Every index of the buffer is in range. -/
theorem index_range (i : Index) : i.toNat < Config.bufferEntries := i.isLt

end Sys2Proof.Machine
end

