-- ==== Sys2Proof/Laws/Capture.lean ====
section
/-! SUPPORT. What RECORD, STREAM, the capture sub-steps, the telemetry tick and the key events can do, each said once. -/

namespace Sys2Proof.Machine

open Sys2Proof

/-! ### Buffer entries -/

theorem State.setEntry_entry_same {s : State} (hs : Memory.sorted s.buf) (i : Index) (v : ChannelWord) :
    (s.setEntry i v).entry i = v := Memory.read_write_same hs i.toNat v

theorem State.setEntry_entry_other (s : State) {i j : Index} (h : j ≠ i) (v : ChannelWord) :
    (s.setEntry i v).entry j = s.entry j :=
  Memory.read_write_other (fun h' => h (BitVec.eq_of_toNat_eq h')) v

/-! ### RECORD -/

theorem State.record_of_eq {s : State} {f : ChannelWord} (h : f = s.current) : s.record f = s := by
  simp [State.record, h]

theorem State.record_of_ne {s : State} {f : ChannelWord} (h : f ≠ s.current) :
    s.record f = { s.setEntry (s.idx + 1#8) f with idx := s.idx + 1#8, changes := s.changes + 1#32 } := by
  simp only [State.record, if_pos h]

/-- RECORD keeps the canonical form of the buffer. -/
theorem State.record_wf {s : State} (hs : Memory.wf s.buf) (f : ChannelWord) : Memory.wf (s.record f).buf := by
  by_cases h : f = s.current
  · rw [State.record_of_eq h]
    exact hs
  · rw [State.record_of_ne h]
    exact Memory.write_wf hs (s.idx + 1#8).isLt f

/-- The word last given to RECORD is the latest stored word (R124). -/
theorem State.record_current {s : State} (hs : Memory.sorted s.buf) (f : ChannelWord) : (s.record f).current = f := by
  by_cases h : f = s.current
  · rw [State.record_of_eq h, h]
  · rw [State.record_of_ne h]
    exact State.setEntry_entry_same hs _ _

@[simp] theorem State.record_armed (s : State) (f : ChannelWord) : (s.record f).armed = s.armed := by
  unfold State.record; split <;> rfl
@[simp] theorem State.record_enableMask (s : State) (f : ChannelWord) : (s.record f).enableMask = s.enableMask := by
  unfold State.record; split <;> rfl
@[simp] theorem State.record_invertMask (s : State) (f : ChannelWord) : (s.record f).invertMask = s.invertMask := by
  unfold State.record; split <;> rfl
@[simp] theorem State.record_running (s : State) (f : ChannelWord) : (s.record f).running = s.running := by
  unfold State.record; split <;> rfl
@[simp] theorem State.record_samples (s : State) (f : ChannelWord) : (s.record f).samples = s.samples := by
  unfold State.record; split <;> rfl
@[simp] theorem State.record_ticks (s : State) (f : ChannelWord) : (s.record f).ticks = s.ticks := by
  unfold State.record; split <;> rfl
@[simp] theorem State.record_tx (s : State) (f : ChannelWord) : (s.record f).tx = s.tx := by
  unfold State.record; split <;> rfl
@[simp] theorem State.record_diag (s : State) (f : ChannelWord) : (s.record f).diag = s.diag := by
  unfold State.record; split <;> rfl
@[simp] theorem State.record_frames (s : State) (f : ChannelWord) : (s.record f).frames = s.frames := by
  unfold State.record; split <;> rfl
@[simp] theorem State.record_resetClearsCapture (s : State) (f : ChannelWord) :
    (s.record f).resetClearsCapture = s.resetClearsCapture := by
  unfold State.record; split <;> rfl

/-! ### STREAM writes TX alone -/

theorem State.stream_eq (s : State) : s.stream = { s with tx := s.tx ++ if s.armed then [s.current] else [] } := by
  unfold State.stream
  split <;> simp [State.emitTx]

/-! ### The capture sub-steps -/

/-- Sub-steps 1 to 4 in one record: RECORD decides BUF, IDX and CHANGES, SAMPLES counts, STREAM appends to TX. -/
theorem State.capture_eq (s : State) (raw : ChannelWord) :
    s.capture raw =
      { s.record (s.filtered raw) with
        samples := s.samples + 1#32
        tx := s.tx ++ if s.armed then [(s.record (s.filtered raw)).current] else [] } := by
  simp only [State.capture, State.stream_eq]
  simp [State.countSample, State.current, State.entry]

@[simp] theorem State.capture_buf (s : State) (raw : ChannelWord) :
    (s.capture raw).buf = (s.record (s.filtered raw)).buf := by rw [State.capture_eq]
@[simp] theorem State.capture_idx (s : State) (raw : ChannelWord) :
    (s.capture raw).idx = (s.record (s.filtered raw)).idx := by rw [State.capture_eq]
@[simp] theorem State.capture_changes (s : State) (raw : ChannelWord) :
    (s.capture raw).changes = (s.record (s.filtered raw)).changes := by rw [State.capture_eq]
@[simp] theorem State.capture_armed (s : State) (raw : ChannelWord) : (s.capture raw).armed = s.armed := by
  simp [State.capture_eq]
@[simp] theorem State.capture_enableMask (s : State) (raw : ChannelWord) :
    (s.capture raw).enableMask = s.enableMask := by simp [State.capture_eq]
@[simp] theorem State.capture_invertMask (s : State) (raw : ChannelWord) :
    (s.capture raw).invertMask = s.invertMask := by simp [State.capture_eq]
@[simp] theorem State.capture_running (s : State) (raw : ChannelWord) : (s.capture raw).running = s.running := by
  simp [State.capture_eq]
@[simp] theorem State.capture_samples (s : State) (raw : ChannelWord) :
    (s.capture raw).samples = s.samples + 1#32 := by simp [State.capture_eq]
@[simp] theorem State.capture_ticks (s : State) (raw : ChannelWord) : (s.capture raw).ticks = s.ticks := by
  simp [State.capture_eq]
@[simp] theorem State.capture_diag (s : State) (raw : ChannelWord) : (s.capture raw).diag = s.diag := by
  simp [State.capture_eq]
@[simp] theorem State.capture_frames (s : State) (raw : ChannelWord) : (s.capture raw).frames = s.frames := by
  simp [State.capture_eq]

@[simp] theorem State.capture_resetClearsCapture (s : State) (raw : ChannelWord) :
    (s.capture raw).resetClearsCapture = s.resetClearsCapture := by simp [State.capture_eq]

theorem State.capture_current {s : State} (hs : Memory.sorted s.buf) (raw : ChannelWord) :
    (s.capture raw).current = s.filtered raw :=
  (State.current_congr (s.capture_buf raw) (s.capture_idx raw)).trans (State.record_current hs _)

@[simp] theorem State.tail_length (s : State) (n : Nat) : (s.tail n).length = n := by simp [State.tail]

/-! ### The telemetry tick -/

/-- The tick in one record. -/
theorem State.telemetryTick_eq (s : State) :
    s.telemetryTick =
      { s with
        frames := s.frames ++ [⟨s.samples, s.changes, s.tail Config.tailEntries⟩]
        samples := if s.ticks + 1 = Config.periodTicks then 0#32 else s.samples
        changes := if s.ticks + 1 = Config.periodTicks then 0#32 else s.changes
        ticks := if s.ticks + 1 = Config.periodTicks then 0 else s.ticks + 1 } := by
  unfold State.telemetryTick State.advancePeriod State.emitFrame
  split <;> simp_all

/-- Sub-step 6 in one record. -/
theorem State.telemetry_eq (s : State) (tick : Bool) :
    s.telemetry tick =
      { s with
        frames := s.frames ++ if tick then [⟨s.samples, s.changes, s.tail Config.tailEntries⟩] else []
        samples := if tick ∧ s.ticks + 1 = Config.periodTicks then 0#32 else s.samples
        changes := if tick ∧ s.ticks + 1 = Config.periodTicks then 0#32 else s.changes
        ticks := if tick then (if s.ticks + 1 = Config.periodTicks then 0 else s.ticks + 1) else s.ticks } := by
  cases tick <;> simp [State.telemetry, State.telemetryTick_eq]

/-! ### Key events write the two flags alone -/

/-- KEY_EVENTS in one record. -/
theorem State.keyEvents_eq (s : State) (keys : List KeyEvent) :
    s.keyEvents keys =
      { s with
        armed := s.armed ^^ decide (keys.count .toggle % 2 = 1)
        running := s.running && !keys.contains .quit } := by
  unfold State.keyEvents
  induction keys generalizing s with
  | nil => simp
  | cons k ks ih =>
    rw [List.foldl_cons, ih]
    cases k with
    | toggle =>
      rcases Nat.mod_two_eq_zero_or_one (ks.count .toggle) with h | h <;>
        simp [State.keyEvent, State.toggleArmed, h, Nat.add_mod]
    | quit => simp [State.keyEvent, State.quit]
    | other code => simp [State.keyEvent]

end Sys2Proof.Machine
end

