-- ==== Sys2Proof/Laws/Decode.lean ====
section
/-! SUPPORT. The opcode map, the frame parser and the encoder, each said once. -/

namespace Sys2Proof

open Config

theorem Mnemonic.mem_all (k : Mnemonic) : k ∈ Mnemonic.all := by cases k <;> decide

/-- A byte the map's inverse finds is the byte of the mnemonic found. -/
theorem map_of_lookup {m : OpcodeMap} {op : Byte} {k : Mnemonic} (h : lookup m op = some k) : m k = op := by
  simpa using List.find?_some h

/-- The map's inverse finds nothing exactly on the bytes outside the map's image. -/
theorem lookup_eq_none {m : OpcodeMap} {op : Byte} : lookup m op = none ↔ ∀ k, m k ≠ op := by
  simp [lookup, List.find?_eq_none, Mnemonic.mem_all]

/-- On a legal map the inverse of a mnemonic's byte is that mnemonic. -/
theorem lookup_map {m : OpcodeMap} (hm : OpcodeMap.Legal m) (k : Mnemonic) : lookup m (m k) = some k := by
  cases h : lookup m (m k) with
  | none => exact absurd rfl (lookup_eq_none.mp h k)
  | some k' => rw [hm.1 k' k (map_of_lookup h)]

/-- A complete short frame is parsed with nothing but its opcode. -/
theorem parseNext_short {m : OpcodeMap} {op : Byte} (h : isLong op = false) (rest : List Byte) :
    parseNext m (op :: rest) = .command (decodeFrame m op none) rest := by
  simp [parseNext, h]

/-- A complete long frame is parsed with exactly four argument bytes. -/
theorem parseNext_long {m : OpcodeMap} {op : Byte} (h : isLong op = true) (a b c d : Byte) (rest : List Byte) :
    parseNext m (op :: a :: b :: c :: d :: rest) =
      .command (decodeFrame m op (some (assembleArg [a, b, c, d]))) rest := by
  simp [parseNext, h, argBytes]

/-- A long frame cut short is incomplete, whatever the map. -/
theorem parseNext_truncated {m : OpcodeMap} {op : Byte} (h : isLong op = true) {rest : List Byte}
    (hr : rest.length < argBytes) : parseNext m (op :: rest) = .incomplete op rest.length := by
  simp [parseNext, h, hr]

/-- A parsed frame uses up at least one byte. -/
theorem parseNext_rest_lt {m : OpcodeMap} {bytes rest : List Byte} {i : Instr}
    (h : parseNext m bytes = .command i rest) : rest.length < bytes.length := by
  cases bytes with
  | nil => simp [parseNext] at h
  | cons op tl =>
    simp only [parseNext] at h
    split at h
    · split at h
      · cases h
      · cases h
        simp only [List.length_drop, List.length_cons]
        omega
    · cases h
      simp

/-- What an incomplete parse says of the bytes it saw. -/
theorem parseNext_incomplete {m : OpcodeMap} {bytes : List Byte} {op : Byte} {n : Nat}
    (h : parseNext m bytes = .incomplete op n) : isLong op = true ∧ n < argBytes := by
  cases bytes with
  | nil => simp [parseNext] at h
  | cons b tl =>
    simp only [parseNext] at h
    split at h
    · split at h
      · cases h
        exact ⟨‹_›, ‹_›⟩
      · cases h
    · cases h

/-- An argument's four bytes. -/
theorem wordBytes_length (a : Word) : (wordBytes a).length = argBytes := rfl

/-- The bytes of an argument at the widths of R10, most significant first. -/
theorem wordBytes_eq (a : BitVec 32) :
    wordBytes a = [(a >>> 24).setWidth 8, (a >>> 16).setWidth 8, (a >>> 8).setWidth 8, (a >>> 0).setWidth 8] := rfl

/-- Operand assembly of four bytes at the widths of R10. -/
theorem assembleArg_eq (a3 a2 a1 a0 : Byte) :
    assembleArg [a3, a2, a1, a0] =
      ((((0#32 <<< 8 ||| a3.setWidth 32) <<< 8 ||| a2.setWidth 32) <<< 8 ||| a1.setWidth 32) <<< 8 |||
        a0.setWidth 32 : BitVec 32) := rfl

end Sys2Proof
end

