-- ==== Sys2Proof/Laws/Exec.lean ====
section
/-! SUPPORT. What a command can do, said once for all of them. -/

namespace Sys2Proof.Machine

open Sys2Proof

/-- The fields no command writes (R170): the buffer, RUNNING, the counters, TICKS, the telemetry output, the input
port and the parameter. -/
structure CommandFrame (s t : State) : Prop where
  buf : t.buf = s.buf
  running : t.running = s.running
  samples : t.samples = s.samples
  changes : t.changes = s.changes
  ticks : t.ticks = s.ticks
  frames : t.frames = s.frames
  inputs : t.inputs = s.inputs
  drawn : t.drawn = s.drawn
  resetClearsCapture : t.resetClearsCapture = s.resetClearsCapture

theorem CommandFrame.refl (s : State) : CommandFrame s s := by constructor <;> rfl

theorem CommandFrame.trans {s t u : State} (h₁ : CommandFrame s t) (h₂ : CommandFrame t u) : CommandFrame s u where
  buf := h₂.buf.trans h₁.buf
  running := h₂.running.trans h₁.running
  samples := h₂.samples.trans h₁.samples
  changes := h₂.changes.trans h₁.changes
  ticks := h₂.ticks.trans h₁.ticks
  frames := h₂.frames.trans h₁.frames
  inputs := h₂.inputs.trans h₁.inputs
  drawn := h₂.drawn.trans h₁.drawn
  resetClearsCapture := h₂.resetClearsCapture.trans h₁.resetClearsCapture

/-! ### The session end of RESET and FINISH_NOW, field by field -/

@[simp] theorem State.endSession_armed (clears : Bool) (s : State) :
    (s.endSession clears).armed = false := by cases clears <;> rfl
@[simp] theorem State.endSession_idx (clears : Bool) (s : State) :
    (s.endSession clears).idx = if clears then 0#Config.indexWidth else s.idx := by cases clears <;> rfl
@[simp] theorem State.endSession_enableMask (clears : Bool) (s : State) :
    (s.endSession clears).enableMask = if clears then Config.enableDefault else s.enableMask := by cases clears <;> rfl
@[simp] theorem State.endSession_invertMask (clears : Bool) (s : State) :
    (s.endSession clears).invertMask = if clears then Config.invertDefault else s.invertMask := by cases clears <;> rfl
@[simp] theorem State.endSession_buf (clears : Bool) (s : State) :
    (s.endSession clears).buf = s.buf := by cases clears <;> rfl
@[simp] theorem State.endSession_running (clears : Bool) (s : State) :
    (s.endSession clears).running = s.running := by cases clears <;> rfl
@[simp] theorem State.endSession_samples (clears : Bool) (s : State) :
    (s.endSession clears).samples = s.samples := by cases clears <;> rfl
@[simp] theorem State.endSession_changes (clears : Bool) (s : State) :
    (s.endSession clears).changes = s.changes := by cases clears <;> rfl
@[simp] theorem State.endSession_ticks (clears : Bool) (s : State) :
    (s.endSession clears).ticks = s.ticks := by cases clears <;> rfl
@[simp] theorem State.endSession_tx (clears : Bool) (s : State) :
    (s.endSession clears).tx = s.tx := by cases clears <;> rfl
@[simp] theorem State.endSession_diag (clears : Bool) (s : State) :
    (s.endSession clears).diag = s.diag := by cases clears <;> rfl
@[simp] theorem State.endSession_frames (clears : Bool) (s : State) :
    (s.endSession clears).frames = s.frames := by cases clears <;> rfl
@[simp] theorem State.endSession_inputs (clears : Bool) (s : State) :
    (s.endSession clears).inputs = s.inputs := by cases clears <;> rfl
@[simp] theorem State.endSession_drawn (clears : Bool) (s : State) :
    (s.endSession clears).drawn = s.drawn := by cases clears <;> rfl
@[simp] theorem State.endSession_resetClearsCapture (clears : Bool) (s : State) :
    (s.endSession clears).resetClearsCapture = s.resetClearsCapture := by cases clears <;> rfl

theorem State.endSession_frame (clears : Bool) (s : State) : CommandFrame s (s.endSession clears) := by
  cases clears <;> constructor <;> rfl

theorem State.emitTxAll_frame (s : State) (bytes : List Byte) : CommandFrame s (s.emitTxAll bytes) := by
  rw [State.emitTxAll_eq]
  constructor <;> rfl

/-- Every command answers a next state and keeps the fields of `CommandFrame`. -/
theorem exec_next (i : Instr) (s : State) : ∃ t, exec i s = .next t ∧ CommandFrame s t := by
  cases i <;> refine ⟨_, rfl, ?_⟩
  case reset => exact s.endSession_frame _
  case finishNow => exact s.endSession_frame _
  case queryId => exact s.emitTxAll_frame _
  case getMetadata => exact s.emitTxAll_frame _
  all_goals constructor <;> rfl

/-- The same, for a next state already in hand. -/
theorem exec_frame {i : Instr} {s t : State} (h : exec i s = .next t) : CommandFrame s t := by
  obtain ⟨u, hu, hf⟩ := exec_next i s
  rw [hu] at h
  cases h
  exact hf

/-- The mask operand at the widths of R10. -/
theorem maskOperand_eq (a : BitVec 32) : maskOperand a = ((a >>> 24) &&& 0xFF#32).setWidth 8 := channelWordOf_eq _

end Sys2Proof.Machine
end

