-- ==== Sys2Proof/Laws/Parser.lean ====
section
/-! SUPPORT. PROCESS_CHUNK: its equations without the pass bound, and one induction principle for everything a chunk can do. -/

namespace Sys2Proof.Machine

open Sys2Proof Config

@[simp] theorem andThen_next (s : State) (f : State → Host.Outcome State Fault Refusal) : andThen (.next s) f = f s := rfl

@[simp] theorem andThen_fault (r : Fault) (f : State → Host.Outcome State Fault Refusal) :
    andThen (.fault r) f = .fault r := rfl

@[simp] theorem andThen_refused (r : Refusal) (f : State → Host.Outcome State Fault Refusal) :
    andThen (.refused r) f = .refused r := rfl

theorem andThen_assoc (o : Host.Outcome State Fault Refusal) (f g : State → Host.Outcome State Fault Refusal) :
    andThen (andThen o f) g = andThen o fun s => andThen (f s) g := by
  cases o <;> rfl

/-- A sequence answers a next state exactly when both parts do. -/
theorem andThen_eq_next {o : Host.Outcome State Fault Refusal} {f : State → Host.Outcome State Fault Refusal} {u : State} :
    andThen o f = .next u ↔ ∃ t, o = .next t ∧ f t = .next u := by
  cases o <;> simp

/-- The pass bound does not matter once it covers the bytes left. -/
theorem processFrames_fuel (m : OpcodeMap) {fuel : Nat} {bytes : List Byte} (h : bytes.length ≤ fuel) (s : State) :
    processFrames m fuel bytes s = processChunk m bytes s := by
  unfold processChunk
  induction fuel using Nat.strong_induction_on generalizing bytes s with
  | _ fuel ih =>
    match fuel, bytes with
    | 0, [] => rfl
    | 0, _ :: _ => simp at h
    | _ + 1, [] => simp [processFrames, parseNext]
    | fuel + 1, op :: tl =>
      simp only [List.length_cons, processFrames]
      cases hp : parseNext m (op :: tl) with
      | endOfChunk => rfl
      | incomplete op present => rfl
      | command i rest =>
        have hlt := parseNext_rest_lt hp
        simp only [List.length_cons] at hlt h
        dsimp only
        congr 1
        funext t
        rw [ih fuel (by omega) (by omega) t]
        rcases Nat.lt_or_ge tl.length (fuel + 1) with h' | h'
        · rw [ih tl.length (by omega) (by omega) t]
        · omega

@[simp] theorem processChunk_nil (m : OpcodeMap) (s : State) : processChunk m [] s = .next s := rfl

/-- A complete frame is dispatched, then the rest of the chunk is processed. -/
theorem processChunk_command {m : OpcodeMap} {bytes rest : List Byte} {i : Instr}
    (h : parseNext m bytes = .command i rest) (s : State) :
    processChunk m bytes s = andThen (exec i s) (processChunk m rest) := by
  have hlt := parseNext_rest_lt h
  obtain ⟨n, hn⟩ : ∃ n, bytes.length = n + 1 := ⟨bytes.length - 1, by omega⟩
  unfold processChunk
  rw [hn]
  simp only [processFrames, h]
  congr 1
  funext t
  exact processFrames_fuel m (by omega) t

/-- A truncated frame ends the chunk with its diagnostic. -/
theorem processChunk_incomplete {m : OpcodeMap} {bytes : List Byte} {op : Byte} {n : Nat}
    (h : parseNext m bytes = .incomplete op n) (s : State) :
    processChunk m bytes s = .next (s.raise (.incompleteArgument op n)) := by
  cases bytes with
  | nil => simp [parseNext] at h
  | cons b tl => simp [processChunk, processFrames, h]

/-- Everything a chunk can do: a reflexive relation that every dispatched command extends and every truncation report
satisfies holds between the states before and after the chunk; and the chunk completes. -/
theorem processChunk_induct {m : OpcodeMap} (R : State → State → Prop) (hrefl : ∀ s, R s s)
    (hraise : ∀ s op n, isLong op = true → n < argBytes → R s (s.raise (.incompleteArgument op n)))
    (hexec : ∀ i s t u, exec i s = .next t → R t u → R s u) (bytes : List Byte) (s : State) :
    ∃ t, processChunk m bytes s = .next t ∧ R s t := by
  induction hn : bytes.length using Nat.strong_induction_on generalizing bytes s with
  | _ n ih =>
    cases hp : parseNext m bytes with
    | endOfChunk =>
      refine ⟨s, ?_, hrefl s⟩
      unfold processChunk
      cases bytes with
      | nil => rfl
      | cons b tl => simp [processFrames, hp]
    | incomplete op k =>
      obtain ⟨h1, h2⟩ := parseNext_incomplete hp
      exact ⟨_, processChunk_incomplete hp s, hraise s op k h1 h2⟩
    | command i rest =>
      obtain ⟨t, ht, -⟩ := exec_next i s
      obtain ⟨u, hu, hR⟩ := ih rest.length (hn ▸ parseNext_rest_lt hp) rest t rfl
      exact ⟨u, by rw [processChunk_command hp, ht, andThen_next, hu], hexec i s t u ht hR⟩

/-- The same for sub-step 5 of an iteration, where no chunk may have arrived. -/
theorem receive_induct {m : OpcodeMap} (R : State → State → Prop) (hrefl : ∀ s, R s s)
    (hraise : ∀ s op n, isLong op = true → n < argBytes → R s (s.raise (.incompleteArgument op n)))
    (hexec : ∀ i s t u, exec i s = .next t → R t u → R s u) (rx : Option (List Byte)) (s : State) :
    ∃ t, receive m rx s = .next t ∧ R s t := by
  cases rx with
  | none => exact ⟨s, rfl, hrefl s⟩
  | some chunk => exact processChunk_induct R hrefl hraise hexec chunk s

end Sys2Proof.Machine
end

