-- ==== Sys2Proof/Laws/Iteration.lean ====
section
/-! SUPPORT. One iteration: its parts in one equation, and what the command phase can do to the fields commands write. -/

namespace Sys2Proof.Machine

open Sys2Proof Config

/-- Sub-steps 6 and 7 in one record. -/
theorem State.finishIteration_eq (s : State) (inp : Input) :
    s.finishIteration inp =
      { s with
        armed := s.armed ^^ decide (inp.keys.count .toggle % 2 = 1)
        running := s.running && !inp.keys.contains .quit
        frames := s.frames ++ if inp.tick then [⟨s.samples, s.changes, s.tail tailEntries⟩] else []
        samples := if inp.tick ∧ s.ticks + 1 = periodTicks then 0#32 else s.samples
        changes := if inp.tick ∧ s.ticks + 1 = periodTicks then 0#32 else s.changes
        ticks := if inp.tick then (if s.ticks + 1 = periodTicks then 0 else s.ticks + 1) else s.ticks } := by
  simp only [State.finishIteration, State.keyEvents_eq, State.telemetry_eq]

/-- The command phase completes and keeps the fields no command writes. -/
theorem receive_next (m : OpcodeMap) (rx : Option (List Byte)) (s : State) :
    ∃ t, receive m rx s = .next t ∧ CommandFrame s t :=
  receive_induct CommandFrame CommandFrame.refl (fun _ _ _ _ _ => by constructor <;> rfl)
    (fun _ _ _ _ h h' => (exec_frame h).trans h') rx s

/-- An iteration of a running core: capture, then the command phase, then the tick and the keys. -/
theorem iterate_next {m : OpcodeMap} {s t : State} {inp : Input} (h : iterate m s inp = .next t) :
    s.running = true ∧ ∃ u, receive m inp.rx (s.capture inp.raw) = .next u ∧
      CommandFrame (s.capture inp.raw) u ∧ t = u.finishIteration inp := by
  unfold iterate at h
  split at h
  · obtain ⟨u, hu, hf⟩ := receive_next m inp.rx (s.capture inp.raw)
    rw [hu, andThen_next] at h
    cases h
    exact ⟨‹_›, u, hu, hf, rfl⟩
  · cases h

/-- A running core completes its iteration on every input record. -/
theorem iterate_running (m : OpcodeMap) {s : State} (h : s.running = true) (inp : Input) :
    ∃ t, iterate m s inp = .next t := by
  obtain ⟨u, hu, -⟩ := receive_next m inp.rx (s.capture inp.raw)
  exact ⟨_, by rw [iterate, if_pos h, hu, andThen_next]⟩

/-- A halted core has no iteration. -/
theorem iterate_halted (m : OpcodeMap) {s : State} (h : s.running = false) (inp : Input) :
    iterate m s inp = .fault .halted := by
  simp [iterate, h]

@[simp] theorem State.consumeInput_running (s : State) : s.consumeInput.running = s.running := by
  unfold State.consumeInput; split <;> rfl
@[simp] theorem State.consumeInput_buf (s : State) : s.consumeInput.buf = s.buf := by
  unfold State.consumeInput; split <;> rfl
@[simp] theorem State.consumeInput_idx (s : State) : s.consumeInput.idx = s.idx := by
  unfold State.consumeInput; split <;> rfl
@[simp] theorem State.consumeInput_armed (s : State) : s.consumeInput.armed = s.armed := by
  unfold State.consumeInput; split <;> rfl
@[simp] theorem State.consumeInput_enableMask (s : State) : s.consumeInput.enableMask = s.enableMask := by
  unfold State.consumeInput; split <;> rfl
@[simp] theorem State.consumeInput_invertMask (s : State) : s.consumeInput.invertMask = s.invertMask := by
  unfold State.consumeInput; split <;> rfl
@[simp] theorem State.consumeInput_samples (s : State) : s.consumeInput.samples = s.samples := by
  unfold State.consumeInput; split <;> rfl
@[simp] theorem State.consumeInput_changes (s : State) : s.consumeInput.changes = s.changes := by
  unfold State.consumeInput; split <;> rfl
@[simp] theorem State.consumeInput_ticks (s : State) : s.consumeInput.ticks = s.ticks := by
  unfold State.consumeInput; split <;> rfl
@[simp] theorem State.consumeInput_tx (s : State) : s.consumeInput.tx = s.tx := by
  unfold State.consumeInput; split <;> rfl
@[simp] theorem State.consumeInput_diag (s : State) : s.consumeInput.diag = s.diag := by
  unfold State.consumeInput; split <;> rfl
@[simp] theorem State.consumeInput_frames (s : State) : s.consumeInput.frames = s.frames := by
  unfold State.consumeInput; split <;> rfl
@[simp] theorem State.consumeInput_resetClearsCapture (s : State) :
    s.consumeInput.resetClearsCapture = s.resetClearsCapture := by
  unfold State.consumeInput; split <;> rfl
@[simp] theorem State.consumeInput_filtered (s : State) (raw : ChannelWord) :
    s.consumeInput.filtered raw = s.filtered raw := by simp [State.filtered]
@[simp] theorem State.consumeInput_current (s : State) : s.consumeInput.current = s.current :=
  State.current_congr s.consumeInput_buf s.consumeInput_idx

end Sys2Proof.Machine
end

