-- ==== Sys2Proof/Laws/PerInstr.lean ====
section
/-! SUPPORT. Statements about every instruction as syntax, one lemma per constructor. Family EncodedLength: the frame of a well-formed instruction is as long as bit 7 of its opcode says (R92), under any opcode map. -/

namespace Sys2Proof

open Config

/-- An argument that fits its opcode gives the frame the length bit 7 of the opcode says. -/
theorem encodedLength_of_argFits {op : Byte} {arg : Option Word} (h : argFits op arg = true) :
    (op :: arg.elim [] wordBytes).length = frameLength op := by
  cases arg <;> simp_all [argFits, frameLength, wordBytes, argBytes]

namespace Laws.EncodedLength

def Statement (i : Instr) : Prop :=
  ∀ m : OpcodeMap, i.wfWith m = true → (encodeWith m i).length = frameLength (i.opcode m)

theorem reset (arg : Option Word) : Statement (.reset arg) := fun _ h => encodedLength_of_argFits h
theorem arm (arg : Option Word) : Statement (.arm arg) := fun _ h => encodedLength_of_argFits h
theorem queryId (arg : Option Word) : Statement (.queryId arg) := fun _ h => encodedLength_of_argFits h
theorem selfTest (arg : Option Word) : Statement (.selfTest arg) := fun _ h => encodedLength_of_argFits h
theorem getMetadata (arg : Option Word) : Statement (.getMetadata arg) := fun _ h => encodedLength_of_argFits h
theorem finishNow (arg : Option Word) : Statement (.finishNow arg) := fun _ h => encodedLength_of_argFits h
theorem xon (arg : Option Word) : Statement (.xon arg) := fun _ h => encodedLength_of_argFits h
theorem xoff (arg : Option Word) : Statement (.xoff arg) := fun _ h => encodedLength_of_argFits h
theorem setDivider (arg : Option Word) : Statement (.setDivider arg) := fun _ h => encodedLength_of_argFits h
theorem setReadDelayCount (arg : Option Word) : Statement (.setReadDelayCount arg) := fun _ h => encodedLength_of_argFits h
theorem setFlags (arg : Option Word) : Statement (.setFlags arg) := fun _ h => encodedLength_of_argFits h
theorem triggerMask (a : Word) : Statement (.triggerMask a) := fun _ h => encodedLength_of_argFits (arg := some a) (by simpa [argFits, Instr.wfWith, Instr.opcode] using h)
theorem triggerValues (a : Word) : Statement (.triggerValues a) := fun _ h => encodedLength_of_argFits (arg := some a) (by simpa [argFits, Instr.wfWith, Instr.opcode] using h)
theorem triggerConfig (arg : Option Word) : Statement (.triggerConfig arg) := fun _ h => encodedLength_of_argFits h
theorem unknown (op : Byte) : Statement (.unknown op) := fun _ h => encodedLength_of_argFits (arg := none) (by simp_all [argFits, Instr.wfWith, Instr.opcode])
theorem unknownLong (op : Byte) (a : Word) : Statement (.unknownLong op a) := fun _ h => encodedLength_of_argFits (arg := some a) (by simp_all [argFits, Instr.wfWith, Instr.opcode])

end Laws.EncodedLength

end Sys2Proof
end

