-- ==== Sys2Proof/Tests/Slice0.lean ====
section
/-! SUPPORT. Tests on single commands and single iterations, with expected results taken from the vectors of spec/95_test_vectors.md (named in each comment) or from the spec's tables, and the witnesses that meet the hypotheses of the statements. -/

namespace Sys2Proof.Tests

open Sys2Proof Sys2Proof.Machine Sys2Proof.Config

/-- What a test looks at in the state an outcome leads to. -/
def after {α : Type} (o : Host.Outcome State Fault Refusal) (look : State → α) : Option α :=
  match o with
  | .next s => some (look s)
  | .fault _ => none
  | .refused _ => none

/-- An input record; what is left out is absent, as in R104. -/
def it (raw : Byte) (rx : Option (List Byte) := none) (tick : Bool := false) (keys : List KeyEvent := []) : Input :=
  ⟨raw, rx, tick, keys⟩

/-- A session under way: armed, both masks set, the index at 9. -/
def session : State :=
  { State.reset with buf := [(0, 0x55#8), (9, 0x44#8)], idx := 9#8, armed := true, enableMask := 0x12#8, invertMask := 0xAB#8 }

/-- The reset core in the middle of a chunk. -/
def parse (chunk : List Byte) : Host.Outcome State Fault Refusal := processChunk opcodeMap chunk State.reset

/-! ### Decoding: one word per constructor, written out from the opcode table's encoding -/

theorem test_decode_reset : decode [0b00000000#8] = .command (.reset none) [] := by decide
theorem test_decode_arm : decode [0b00000001#8] = .command (.arm none) [] := by decide
theorem test_decode_queryId : decode [0b00000010#8] = .command (.queryId none) [] := by decide
theorem test_decode_selfTest : decode [0b00000011#8] = .command (.selfTest none) [] := by decide
theorem test_decode_getMetadata : decode [0b00000100#8] = .command (.getMetadata none) [] := by decide
theorem test_decode_finishNow : decode [0b00000101#8] = .command (.finishNow none) [] := by decide
theorem test_decode_xon : decode [0b00010001#8] = .command (.xon none) [] := by decide
theorem test_decode_xoff : decode [0b00010011#8] = .command (.xoff none) [] := by decide
theorem test_decode_setDivider :
    decode [0b10000000#8, 0x00#8, 0x00#8, 0x00#8, 0x63#8] = .command (.setDivider (some 0x63#32)) [] := by decide
theorem test_decode_setReadDelayCount :
    decode [0b10000001#8, 0x00#8, 0x10#8, 0x00#8, 0x10#8] = .command (.setReadDelayCount (some 0x00100010#32)) [] := by decide
theorem test_decode_setFlags :
    decode [0b10000010#8, 0x00#8, 0x00#8, 0x00#8, 0x02#8] = .command (.setFlags (some 0x02#32)) [] := by decide
theorem test_decode_triggerMask :
    decode [0b11000000#8, 0x12#8, 0x34#8, 0x56#8, 0x78#8] = .command (.triggerMask 0x12345678#32) [] := by decide
theorem test_decode_triggerValues :
    decode [0b11000001#8, 0xAB#8, 0x00#8, 0x00#8, 0x00#8] = .command (.triggerValues 0xAB000000#32) [] := by decide
theorem test_decode_triggerConfig :
    decode [0b11000010#8, 0x00#8, 0x00#8, 0x00#8, 0x08#8] = .command (.triggerConfig (some 0x08#32)) [] := by decide
theorem test_decode_unknown : decode [0b01111111#8, 0x01#8] = .command (.unknown 0x7F#8) [0x01#8] := by decide
theorem test_decode_unknownLong :
    decode [0b11111111#8, 0x01#8, 0x01#8, 0x01#8, 0x01#8, 0x01#8] =
      .command (.unknownLong 0xFF#8 0x01010101#32) [0x01#8] := by decide
/-- The table's numbering: the first byte in bits 7..0, the next in bits 15..8. -/
theorem test_decodeTableWord_long : decodeTableWord 40 0x78563412C0 = some (.triggerMask 0x12345678#32) := by decide
/-- Bits above `nbits` are zero. -/
theorem test_decodeTableWord_short_nbits : decodeTableWord 8 0xC1 = some (.triggerValues 0#32) := by decide
theorem test_decode_incomplete : decode [0xC0#8, 0x12#8, 0x34#8] = .incomplete 0xC0#8 2 := by decide
theorem test_decode_end : decode [] = .endOfChunk := by decide
theorem test_encode_long : encode (.triggerMask 0x12345678#32) = [0xC0#8, 0x12#8, 0x34#8, 0x56#8, 0x78#8] := by decide
theorem test_encode_short : encode (.arm none) = [0x01#8] := by decide

/-! ### WellFormed refuses an ill-formed term by each of its checks -/

/-- A short opcode with an argument. -/
theorem test_wf_refuses_argument_on_short_opcode : Instr.wf (.xon (some 0#32)) = false := by decide
/-- A long opcode without its argument. -/
theorem test_wf_refuses_missing_argument : Instr.wf (.setDivider none) = false := by decide
/-- A map that puts TRIGGER_MASK on a byte with bit 7 clear has no such frame. -/
theorem test_wf_refuses_short_triggerMask :
    Instr.wfWith (fun k => if k = .triggerMask then 0x40#8 else sumpMap k) (.triggerMask 0#32) = false := by decide
theorem test_wf_refuses_short_triggerValues :
    Instr.wfWith (fun k => if k = .triggerValues then 0x41#8 else sumpMap k) (.triggerValues 0#32) = false := by decide
/-- A recognised byte as an unknown opcode, and an unknown byte in the wrong format. -/
theorem test_wf_refuses_known_byte_as_unknown : Instr.wf (.unknown 0x01#8) = false := by decide
theorem test_wf_refuses_long_byte_as_short_unknown : Instr.wf (.unknown 0x83#8) = false := by decide
theorem test_wf_refuses_known_byte_as_unknownLong : Instr.wf (.unknownLong 0xC0#8 0#32) = false := by decide
theorem test_wf_refuses_short_byte_as_unknownLong : Instr.wf (.unknownLong 0x06#8 0#32) = false := by decide
/-- R98: under a map that puts XON on a byte with bit 7 set, XON is a long frame. -/
theorem test_wf_long_xon_under_another_map :
    Instr.wfWith (fun k => if k = .xon then 0x91#8 else sumpMap k) (.xon (some 0#32)) = true := by decide

/-! ### Commands (section 2.6 of the vectors) -/

/-- K1. -/
theorem test_reset_clears_armed_only :
    after (exec (.reset none) session) (fun s => (s.armed, s.enableMask, s.invertMask, s.idx)) =
      some (false, 0x12#8, 0xAB#8, 9#8) := by decide
/-- The session of a core built with `RESET_CLEARS_CAPTURE = true`. -/
def clearingSession : State := { session with resetClearsCapture := true }

/-- K2: RESET with `RESET_CLEARS_CAPTURE = true`. -/
theorem test_reset_clears_capture :
    after (exec (.reset none) clearingSession) (fun s => (s.armed, s.idx, s.enableMask, s.invertMask, s.current)) =
      some (false, 0#8, 0xFF#8, 0x00#8, 0x55#8) := by decide
/-- FINISH_NOW has the same branch (R172), and it is reached from a step. -/
theorem test_finishNow_clears_capture_in_a_step :
    after (step (clearingSession.withFetchWord 8 0x05)) (fun s => (s.armed, s.idx, s.enableMask, s.resetClearsCapture)) =
      some (false, 0#8, 0xFF#8, true) := by decide
/-- K3. -/
theorem test_finishNow_disarms : after (exec (.finishNow none) session) (·.armed) = some false := by decide
/-- K6: ARM while Armed does not toggle. -/
theorem test_arm_does_not_toggle : after (exec (.arm none) session) (·.armed) = some true := by decide
/-- K8. -/
theorem test_triggerMask_takes_top_byte :
    after (parse [0xC0#8, 0x12#8, 0x34#8, 0x56#8, 0x78#8]) (fun s => (s.enableMask, s.invertMask)) =
      some (0x12#8, 0x00#8) := by decide
/-- K10. -/
theorem test_triggerValues_takes_top_byte :
    after (exec (.triggerValues 0x00ABABAB#32) session) (fun s => (s.enableMask, s.invertMask)) =
      some (0x12#8, 0x00#8) := by decide
/-- K12. -/
theorem test_queryId_twice : after (parse [0x02#8, 0x02#8]) (·.tx) = some (idString ++ idString) := by rfl
/-- K13. -/
theorem test_getMetadata_length : after (parse [0x04#8]) (·.tx.length) = some 37 := by decide
/-- K14 to K20: the stubs. -/
theorem test_xon : after (exec (.xon none) session) id = some session := by rfl
theorem test_xoff : after (exec (.xoff none) session) id = some session := by rfl
theorem test_setDivider : after (exec (.setDivider (some 0x63#32)) session) id = some session := by rfl
theorem test_setReadDelayCount : after (exec (.setReadDelayCount (some 0x100010#32)) session) id = some session := by rfl
theorem test_setFlags : after (exec (.setFlags (some 2#32)) session) id = some session := by rfl
theorem test_triggerConfig : after (exec (.triggerConfig (some 8#32)) session) id = some session := by rfl
theorem test_selfTest : after (exec (.selfTest none) session) id = some session := by rfl
/-- K21. -/
theorem test_unknown : after (parse [0x7F#8]) (·.diag) = some [.unknownCommand 0x7F#8] := by decide
/-- K22. -/
theorem test_unknownLong :
    after (parse [0xC4#8, 0x01#8, 0x02#8, 0x03#8, 0x04#8]) (fun s => (s.diag, s.armed)) =
      some ([.unknownCommand 0xC4#8], false) := by decide

/-! ### The parser (section 2.5) -/

/-- PV6. -/
theorem test_parser_pv6 :
    after (parse [0x01#8, 0xC0#8, 0x12#8]) (fun s => (s.armed, s.diag, s.enableMask)) =
      some (true, [.incompleteArgument 0xC0#8 1], 0xFF#8) := by decide
/-- PV10. -/
theorem test_parser_pv10 :
    after (parse [0xFF#8, 0x01#8, 0x01#8, 0x01#8, 0x01#8, 0x01#8]) (fun s => (s.armed, s.diag)) =
      some (true, [.unknownCommand 0xFF#8]) := by decide
/-- PV12: the length check comes before the lookup. -/
theorem test_parser_pv12 : after (parse [0x83#8, 0x01#8]) (·.diag) = some [.incompleteArgument 0x83#8 1] := by decide
/-- PV8: a fifth byte after the opcode is the next frame's opcode. -/
theorem test_parser_pv8 :
    after (parse [0x01#8, 0xC0#8, 0x12#8, 0x00#8, 0x00#8, 0x00#8, 0x00#8]) (fun s => (s.enableMask, s.armed)) =
      some (0x12#8, false) := by decide

/-! ### The capture path (sections 2.1 to 2.4) -/

/-- F3, F6, F9. -/
theorem test_filter :
    filterWord 0x5A#8 0x0F#8 0x3C#8 = 0x14#8 ∧ filterWord 0x00#8 0xFF#8 0x00#8 = 0x00#8 ∧
    filterWord 0x80#8 0x00#8 0x7F#8 = 0x00#8 := by decide
/-- RC3: the wrap from 255 to 0 overwrites entry 0. -/
theorem test_record_wraps :
    let s : State := { State.reset with buf := [(255, 0x10#8)], idx := 255#8, changes := 9#32 }
    ((s.record 0x20#8).idx, (s.record 0x20#8).buf, (s.record 0x20#8).changes) =
      (0#8, [(0, 0x20#8), (255, 0x10#8)], 10#32) := by decide
/-- RC4: CHANGES wraps. -/
theorem test_record_changes_wrap :
    let s : State := { State.reset with buf := [(7, 0x01#8)], idx := 7#8, changes := 0xFFFFFFFF#32 }
    ((s.record 0x02#8).idx, (s.record 0x02#8).changes) = (8#8, 0#32) := by decide
/-- T2: the index arithmetic of the tail wraps below 0. -/
theorem test_tail :
    ({ State.reset with buf := [(1, 0x03#8), (2, 0x07#8)], idx := 2#8 } : State).tail 5 =
      [0x07#8, 0x03#8, 0x00#8, 0x00#8, 0x00#8] := by decide
/-- Writing what an unlisted entry reads as removes the entry. -/
theorem test_write_zero_removes : Memory.write [(1, 0x03#8), (2, 0x07#8)] 1 0x00#8 = [(2, 0x07#8)] := by decide

/-! ### Keys, ticks and whole iterations (sections 2.7 to 2.9) -/

/-- SM7: events after a QUIT are still applied. -/
theorem test_keys_after_quit :
    (fun s : State => (s.armed, s.running)) (State.reset.keyEvents [.quit, .toggle, .other 0x41]) = (true, false) := by decide
/-- A2: the fifth tick's frame carries the counts before the reset. -/
theorem test_fifth_tick :
    after (iterate opcodeMap
        { State.reset with buf := [(3, 0x01#8)], idx := 3#8, samples := 999#32, changes := 6#32, ticks := 4 }
        (it 0x02#8 none true))
      (fun s => (s.frames, s.samples, s.changes, s.ticks)) =
      some ([⟨1000#32, 7#32, [0x02#8, 0x01#8, 0x00#8, 0x00#8, 0x00#8]⟩], 0#32, 0#32, 0) := by decide
/-- O2: the byte of the iteration is streamed before its RESET runs. -/
theorem test_stream_before_reset :
    after (iterate opcodeMap { State.reset with armed := true } (it 0x05#8 (some [0x00#8]))) (fun s => (s.tx, s.armed)) =
      some ([0x05#8], false) := by decide
/-- O4: a response follows the streaming byte. -/
theorem test_response_after_stream :
    after (iterate opcodeMap { State.reset with armed := true, buf := [(0, 0x09#8)] } (it 0x09#8 (some [0x02#8]))) (·.tx) =
      some (0x09#8 :: idString) := by rfl
/-- O3, first iteration: the old masks filter the word. -/
theorem test_old_masks_filter :
    after (iterate opcodeMap State.reset (it 0x0F#8 (some [0xC1#8, 0xFF#8, 0x00#8, 0x00#8, 0x00#8])))
      (fun s => (s.current, s.invertMask)) = some (0x0F#8, 0xFF#8) := by decide
/-- SM4: a TOGGLE runs after the ARM of its iteration. -/
theorem test_toggle_after_arm :
    after (iterate opcodeMap State.reset (it 0x00#8 (some [0x01#8]) false [.toggle])) (·.armed) = some false := by decide
/-- O5: a halted core has no step. -/
theorem test_halted_has_no_step : step { State.reset with running := false } = .fault .halted := by rfl
/-- A command is the first thing a core runs after reset. -/
theorem test_first_command_after_reset :
    after (step (State.reset.withFetchWord 40 0x12C0)) (fun s => (s.enableMask, s.inputs)) = some (0x12#8, []) := by decide

/-! ### Witnesses: concrete states and operands that meet the hypotheses of each statement -/

/-- The default map is legal. -/
theorem witness_legal_map : OpcodeMap.Legal opcodeMap := by
  refine ⟨fun a b => ?_, by decide⟩
  cases a <;> cases b <;> decide

/-- DecodeOfEncodeGivesInstructionBack: a short and a long frame, known and unknown. -/
theorem witness_wf_instructions :
    OpcodeMap.Legal opcodeMap ∧ ∀ i ∈ [Instr.arm none, .setDivider (some 0xFFFFFFFF#32), .unknown 0x7F#8, .unknownLong 0xFF#8 0#32],
      i.wfWith opcodeMap = true := ⟨witness_legal_map, by decide⟩

/-- EncodeOfDecodeGivesBytesBack. -/
theorem witness_parsed_frame : OpcodeMap.Legal opcodeMap ∧
    parseNext opcodeMap [0xC2#8, 1#8, 2#8, 3#8, 4#8, 5#8] = .command (.triggerConfig (some 0x01020304#32)) [5#8] :=
  ⟨witness_legal_map, by decide⟩

/-- BitSevenAloneDecidesFrameLength: frames that just fit, at the two sides of bit 7. -/
theorem witness_frame_just_fits :
    frameLength 0x7F#8 ≤ [0x7F#8].length ∧ frameLength 0x80#8 ≤ [0x80#8, 0#8, 0#8, 0#8, 0#8].length := by decide

/-- BytesOutsideTheMapAreUnknown, each clause: bytes outside the map, and a byte of the map in each format. -/
theorem witness_bytes_outside_and_inside : OpcodeMap.Legal opcodeMap ∧
    (∀ k, opcodeMap k ≠ 0x06#8) ∧ (∀ k, opcodeMap k ≠ 0x83#8) ∧
    opcodeMap .xoff = 0x13#8 ∧ (none : Option Word).isSome = (0x13#8 : Byte).getLsbD 7 ∧
    opcodeMap .triggerConfig = 0xC2#8 ∧ (some 0#32 : Option Word).isSome = (0xC2#8 : Byte).getLsbD 7 := by
  refine ⟨witness_legal_map, ?_, ?_, by decide⟩ <;> intro k <;> cases k <;> decide

/-- ChunkRunsItsFramesInOrder: well-formed frames, then a frame cut after 0 and after 3 bytes. -/
theorem witness_chunk : OpcodeMap.Legal opcodeMap ∧
    (∀ i ∈ [Instr.reset none, .arm none, .triggerMask 0x12000000#32], i.wfWith opcodeMap = true) ∧
    (0x80#8 : Byte).getLsbD 7 = true ∧ ([] : List Byte).length < 4 ∧ [1#8, 2#8, (3#8 : Byte)].length < 4 :=
  ⟨witness_legal_map, by decide⟩

/-- IncompleteArgumentDiscardsTheChunk: a recognised and an unknown opcode, 0 and 3 bytes left. -/
theorem witness_incomplete : (0xC0#8 : Byte).getLsbD 7 = true ∧ ([] : List Byte).length < 4 ∧
    (0xFF#8 : Byte).getLsbD 7 = true ∧ [1#8, 2#8, (3#8 : Byte)].length < 4 := by decide

/-- SplitFrameIsLost at k = 1 and k = 4, with a rest that starts with bit 7 clear and with bit 7 set. -/
theorem witness_split : OpcodeMap.Legal opcodeMap ∧
    Instr.wfWith opcodeMap (.triggerMask 0x12000080#32) = true ∧ Instr.arg (.triggerMask 0x12000080#32) = some 0x12000080#32 ∧
    (encodeWith opcodeMap (.triggerMask 0x12000080#32)).drop 1 = 0x12#8 :: [0x00#8, 0x00#8, 0x80#8] ∧
    (encodeWith opcodeMap (.triggerMask 0x12000080#32)).drop 4 = 0x80#8 :: [] ∧
    (0x12#8 : Byte).getLsbD 7 = false ∧ (0x80#8 : Byte).getLsbD 7 = true := ⟨witness_legal_map, by decide⟩

/-- NoChunkWritesBufferOrCounters. -/
theorem witness_chunk_completes : ∃ t, processChunk opcodeMap [0x02#8, 0x06#8, 0x00#8, 0xC0#8] session = .next t := ⟨_, rfl⟩

/-- BufferReadAfterWrite: a canonical buffer, read at the index written and at another, at the ends of the buffer. -/
theorem witness_buffer : Memory.wf [(0, 0x55#8), (255, 0x10#8)] := by decide

/-- BufferFormIsCanonical: two canonical buffers that read alike, one built by writes in the other order. -/
theorem witness_same_reads :
    let a := Memory.write (Memory.write [] 255 0x10#8) 0 0x55#8
    let b := Memory.write (Memory.write [] 0 0x55#8) 255 0x10#8
    Memory.wf a ∧ Memory.wf b ∧ ∀ i : Index, Memory.read a i.toNat = Memory.read b i.toNat := by
  refine ⟨by decide, by decide, fun i => rfl⟩

/-- RecordStoresOnlyChanges, StreamEmitsTheFilteredWord: a word equal to the latest entry and one that differs, at index 255. -/
theorem witness_record :
    let s : State := { State.reset with buf := [(255, 0x10#8)], idx := 255#8 }
    Memory.wf s.buf ∧ 0x10#8 = s.current ∧ 0x11#8 ≠ s.current := by decide

/-- StepRunsTheDecodedCommand. -/
theorem witness_step : State.reset.running = true ∧
    ({ State.reset with inputs := [it 0x07#8 (some [0x01#8, 0x02#8]) true [.toggle]] } : State).inputs =
      it 0x07#8 (some [0x01#8, 0x02#8]) true [.toggle] :: [] ∧
    decode [0x01#8, 0x02#8] = .command (.arm none) [0x02#8] := ⟨rfl, rfl, by decide⟩

/-- PresentedFrameIsRunByTheNextStep: a short and a long number. -/
theorem witness_presented : session.running = true ∧ decodeTableWord 8 0x05 = some (.finishNow none) ∧
    decodeTableWord 40 0x0807060580 = some (.setDivider (some 0x05060708#32)) := ⟨rfl, by decide⟩

/-- StepCompletesExactlyWhileRunning, each clause. -/
theorem witness_running_and_halted :
    session.running = true ∧ ({ session with running := false } : State).running = false := ⟨rfl, rfl⟩

/-- A state of a long session: the buffer has wrapped, the fifth tick is due. -/
def busy : State :=
  { session with buf := [(0, 0x55#8), (255, 0x12#8)], idx := 255#8, samples := 5#32, changes := 3#32, ticks := 4, tx := [1#8] }

/-- ResetAndFinishNowEndTheSession, ResetCommandIsNotPowerOnReset, CommandEffectIsTheSameInEveryState: a state with each value of
the parameter. -/
theorem witness_parameter : session.resetClearsCapture = false ∧ clearingSession.resetClearsCapture = true := ⟨rfl, rfl⟩

/-- The statements about one completed iteration (OnlyQuitHaltsTheCore, LatestEntryIsThisIterationsWord,
IterationWritesAtMostOneEntry, OnlyTheFifthTickClearsTheCounters, OneTelemetryFramePerTick, StreamByteComesBeforeResponses,
CommandsActFromTheNextIteration, ChangesNeverExceedSamples, ArmedGatesTheStreamAlone, OutputsAreNeverReadBack): a buffer in
canonical form, the parameter at its default, and iterations that complete with and without a chunk, a tick and a QUIT, from
that state and from one with other outputs. -/
theorem witness_iteration : Memory.wf busy.buf ∧ busy.resetClearsCapture = false ∧ busy.changes ≤ busy.samples ∧
    busy.samples ≠ 0xFFFFFFFF#32 ∧
    (∃ t, iterate opcodeMap busy (it 0x02#8 (some [0x02#8, 0xC0#8]) true [.quit, .toggle]) = .next t) ∧
    (∃ t, iterate opcodeMap busy (it 0x02#8) = .next t) ∧
    (∃ t, iterate opcodeMap { busy with armed := false, tx := [] } (it 0x02#8) = .next t) := by
  refine ⟨by decide, rfl, by decide, by decide, ⟨_, rfl⟩, ⟨_, rfl⟩, ⟨_, rfl⟩⟩

/-- The boundary of IterationWritesAtMostOneEntry, OnlyTheFifthTickClearsTheCounters and ArmedGatesTheStreamAlone: raw words that
filter to the latest entry and to another word; the tick that brings TICKS to 5, the one before it, and an iteration at TICKS = 4
without a tick. -/
theorem witness_iteration_clauses : busy.filtered 0xB9#8 = busy.current ∧ busy.filtered 0xAB#8 ≠ busy.current ∧
    ((it 0xAB#8 none true).tick = true ∧ busy.ticks + 1 = 5) ∧
    ¬ ((it 0xAB#8 none true).tick = true ∧ ({ busy with ticks := 3 } : State).ticks + 1 = 5) ∧
    ¬ ((it 0xAB#8).tick = true ∧ busy.ticks + 1 = 5) := by decide

/-- IterationWritesAtMostOneEntry, LatestEntryIsThisIterationsWord, OneTelemetryFramePerTick and NoChunkWritesBufferOrCounters with the
parameter set: an iteration whose RESET puts IDX at 0. -/
theorem witness_iteration_clears : ∃ t, clearingSession.resetClearsCapture = true ∧
    iterate opcodeMap clearingSession (it 0x02#8 (some [0x00#8]) true) = .next t ∧ t.idx = 0#8 := ⟨_, rfl, rfl, rfl⟩

/-- StreamByteComesBeforeResponses: two iterations with one chunk, which differ in raw word, tick and keys, from two states. -/
theorem witness_one_chunk_two_inputs : Memory.wf busy.buf ∧ Memory.wf State.reset.buf ∧
    (it 0xAB#8 (some [0x02#8]) true [.toggle]).rx = some [0x02#8] ∧ (it 0x00#8 (some [0x02#8])).rx = some [0x02#8] ∧
    (∃ t, iterate opcodeMap busy (it 0xAB#8 (some [0x02#8]) true [.toggle]) = .next t) ∧
    (∃ t, iterate opcodeMap State.reset (it 0x00#8 (some [0x02#8])) = .next t) :=
  ⟨by decide, by decide, rfl, rfl, ⟨_, rfl⟩, ⟨_, rfl⟩⟩

/-- ArmedGatesTheStreamAlone: one iteration with a response from two states that differ in ARMED and TX alone. -/
theorem witness_armed_and_disarmed : Memory.wf busy.buf ∧
    (∃ t, iterate opcodeMap busy (it 0xAB#8 (some [0x02#8])) = .next t) ∧
    (∃ t, iterate opcodeMap { busy with armed := false, tx := [7#8] } (it 0xAB#8 (some [0x02#8])) = .next t) :=
  ⟨by decide, ⟨_, rfl⟩, ⟨_, rfl⟩⟩

/-- TailCountsBackFromTheIndex at both ends of its range. -/
theorem witness_tail_range : 1 ≤ 1 ∧ 1 ≤ 256 ∧ 256 ≤ 256 := by decide

/-- MaskChangeCanRecordTransition: both commands, and new masks that change the filtered word and that do not. -/
theorem witness_mask_change : OpcodeMap.Legal opcodeMap ∧ Memory.wf State.reset.buf ∧
    (∃ t u, iterate opcodeMap State.reset ⟨0x0F#8, some (encodeWith opcodeMap (.triggerValues 0xFF000000#32)), false, []⟩ = .next t ∧
      iterate opcodeMap t ⟨0x0F#8, none, false, []⟩ = .next u ∧ filterWord 0x0F#8 t.invertMask t.enableMask = 0xF0#8) ∧
    (∃ t u, iterate opcodeMap State.reset ⟨0x0F#8, some (encodeWith opcodeMap (.triggerMask 0x0F000000#32)), false, []⟩ = .next t ∧
      iterate opcodeMap t ⟨0x0F#8, none, false, []⟩ = .next u ∧ filterWord 0x0F#8 t.invertMask t.enableMask = 0x0F#8) := by
  refine ⟨witness_legal_map, by decide, ⟨_, _, rfl, rfl, by decide⟩, ⟨_, _, rfl, rfl, by decide⟩⟩

/-- ToggleRunsAfterTheCommands: each of its three commands is well formed and its iteration completes. -/
theorem witness_toggle_after_commands : OpcodeMap.Legal opcodeMap ∧
    ∀ i ∈ [Instr.arm none, .reset none, .finishNow none], i.wfWith opcodeMap = true ∧
      ∃ t, iterate opcodeMap session ⟨0x00#8, some (encodeWith opcodeMap i), true, [.toggle]⟩ = .next t := by
  refine ⟨witness_legal_map, fun i hi => ?_⟩
  fin_cases hi <;> exact ⟨by decide, _, rfl⟩

/-- SessionTransitionTable: a command of each row, and an incomplete frame. -/
theorem witness_session_rows : (∃ t, exec (.arm none) session = .next t) ∧ (∃ t, exec (.reset none) session = .next t) ∧
    (∃ t, exec (.finishNow none) session = .next t) ∧ (∃ t, exec (.unknown 0x06#8) session = .next t) ∧
    (0xC0#8 : Byte).getLsbD 7 = true ∧ ([] : List Byte).length < 4 ∧ [0x01#8, 0x01#8, (0x01#8 : Byte)].length < 4 :=
  ⟨⟨_, rfl⟩, ⟨_, rfl⟩, ⟨_, rfl⟩, ⟨_, rfl⟩, by decide⟩

/-- The invariant holds of a state that is not reset. -/
theorem witness_inv : session.Inv :=
  ⟨by decide, by decide, by simp [session, State.reset], by simp [session, State.reset]⟩

/-- EveryStepKeepsTheInvariant: a state with the invariant whose step completes. -/
theorem witness_inv_step : ({ session with inputs := [it 0x02#8 (some [0x06#8, 0xC0#8]) true] } : State).Inv ∧
    ∃ t, stepWith opcodeMap { session with inputs := [it 0x02#8 (some [0x06#8, 0xC0#8]) true] } = .next t :=
  ⟨⟨witness_inv.bufWf, witness_inv.ticksLt, witness_inv.tailsFull, witness_inv.diagOk⟩, ⟨_, rfl⟩⟩

/-- BufferHoldsTheLastStoredWords: an aged state with the invariant whose iteration completes, with a word to store. -/
theorem witness_aged : State.reset.Aged [0x00#8] ∧ Memory.wf State.reset.buf ∧ State.reset.resetClearsCapture = false ∧
    some (State.reset.filtered 0x01#8) ≠ [0x00#8].head? ∧ some (State.reset.filtered 0x00#8) = [0x00#8].head? ∧
    ∃ t, iterate opcodeMap State.reset (it 0x01#8) = .next t :=
  ⟨⟨by simp, rfl, fun j _ => by cases j <;> rfl⟩, by decide, rfl, by decide, by decide, ⟨_, rfl⟩⟩

/-- TheOnlyEndOfARunIsHalted: a run of one step that handles a QUIT and ends halted. -/
theorem witness_run_to_halted : ({ State.reset with inputs := [it 0x00#8 none false [.quit]] } : State).Inv ∧
    ∃ t, Reaches { State.reset with inputs := [it 0x00#8 none false [.quit]] } t ∧ t.Halted :=
  ⟨⟨by decide, by decide, by simp [State.reset], by simp [State.reset]⟩, ⟨_, .tail (.refl _) rfl, rfl⟩⟩

end Sys2Proof.Tests
end

section
/-! PROOFS. The statements of 10_state.md: the reset values, what no chunk of commands writes, the frame a tick appends, the
invariant every step keeps, and the outputs that no rule reads back. -/

namespace Sys2Proof.Machine

open Sys2Proof Config

/-! ### The output ports are write-only (R49 to R51)

An operation that reads no output does the same whatever went out before it: run after a past, it ends in what it ends in
without that past, with the past in front. Each part of an iteration commutes with a past; so then does the iteration. -/

/-- What the three output ports hold. -/
structure Outputs where
  tx : List Byte
  diag : List DiagEvent
  frames : List Frame

/-- What the output ports of a state hold. -/
def State.outputs (s : State) : Outputs := ⟨s.tx, s.diag, s.frames⟩

/-- The state before anything went out. -/
def State.silent (s : State) : State := { s with tx := [], diag := [], frames := [] }

/-- The state as it is when `past` went out before everything its output ports hold. -/
def State.withPast (s : State) (past : Outputs) : State :=
  { s with tx := past.tx ++ s.tx, diag := past.diag ++ s.diag, frames := past.frames ++ s.frames }

/-- The outcome as it is when `past` went out before. -/
def outcomeWithPast (past : Outputs) (o : Host.Outcome State Fault Refusal) : Host.Outcome State Fault Refusal :=
  andThen o fun t => .next (t.withPast past)

@[simp] theorem outcomeWithPast_next (past : Outputs) (s : State) :
    outcomeWithPast past (.next s) = .next (s.withPast past) := rfl

@[simp] theorem State.silent_withPast (s : State) (past : Outputs) :
    s.silent.withPast past = { s with tx := past.tx, diag := past.diag, frames := past.frames } := by
  simp [State.silent, State.withPast]

/-- A sequence commutes with a past when both its parts do. -/
theorem andThen_withPast {past : Outputs} {o o' : Host.Outcome State Fault Refusal}
    {f : State → Host.Outcome State Fault Refusal} (ho : o' = outcomeWithPast past o)
    (hf : ∀ t, f (t.withPast past) = outcomeWithPast past (f t)) :
    andThen o' f = outcomeWithPast past (andThen o f) := by
  subst ho
  unfold outcomeWithPast at hf ⊢
  simp only [andThen_assoc, andThen_next, hf]

@[simp] theorem State.withPast_running (s : State) (past : Outputs) : (s.withPast past).running = s.running := rfl

@[simp] theorem State.withPast_armed (s : State) (past : Outputs) : (s.withPast past).armed = s.armed := rfl

@[simp] theorem State.withPast_current (s : State) (past : Outputs) : (s.withPast past).current = s.current := rfl

theorem State.raise_withPast (s : State) (past : Outputs) (e : DiagEvent) :
    (s.withPast past).raise e = (s.raise e).withPast past := by
  simp [State.raise, State.emitDiag, State.withPast]

theorem State.emitTxAll_withPast (s : State) (past : Outputs) (bytes : List Byte) :
    (s.withPast past).emitTxAll bytes = (s.emitTxAll bytes).withPast past := by
  simp [State.emitTxAll_eq, State.withPast]

theorem State.endSession_withPast (s : State) (past : Outputs) (clears : Bool) :
    (s.withPast past).endSession clears = (s.endSession clears).withPast past := by
  cases clears <;> rfl

theorem State.record_withPast (s : State) (past : Outputs) (f : ChannelWord) :
    (s.withPast past).record f = (s.record f).withPast past := by
  by_cases h : f = s.current
  · rw [State.record_of_eq h, State.record_of_eq (s := s.withPast past) h]
  · rw [State.record_of_ne h, State.record_of_ne (s := s.withPast past) h]
    rfl

theorem State.stream_withPast (s : State) (past : Outputs) :
    (s.withPast past).stream = s.stream.withPast past := by
  unfold State.stream
  rw [State.withPast_armed, State.withPast_current]
  split
  · simp [State.emitTx, State.withPast]
  · rfl

theorem State.capture_withPast (s : State) (past : Outputs) (raw : ChannelWord) :
    (s.withPast past).capture raw = (s.capture raw).withPast past :=
  calc (s.withPast past).capture raw
      = ((s.withPast past).record (s.filtered raw)).countSample.stream := rfl
    _ = ((s.record (s.filtered raw)).countSample.withPast past).stream := by rw [State.record_withPast]; rfl
    _ = (s.capture raw).withPast past := State.stream_withPast _ past

theorem State.finishIteration_withPast (s : State) (past : Outputs) (inp : Input) :
    (s.withPast past).finishIteration inp = (s.finishIteration inp).withPast past := by
  -- What is left after reassociating FRAMES are the two tails, which read BUF and IDX alone.
  simp only [State.finishIteration_eq, State.withPast, List.append_assoc]
  rfl

theorem exec_withPast (i : Instr) (s : State) (past : Outputs) :
    exec i (s.withPast past) = outcomeWithPast past (exec i s) := by
  cases i
  case reset => exact congrArg Host.Outcome.next (s.endSession_withPast past _)
  case finishNow => exact congrArg Host.Outcome.next (s.endSession_withPast past _)
  case queryId => exact congrArg Host.Outcome.next (s.emitTxAll_withPast past _)
  case getMetadata => exact congrArg Host.Outcome.next (s.emitTxAll_withPast past _)
  case unknown => exact congrArg Host.Outcome.next (s.raise_withPast past _)
  case unknownLong => exact congrArg Host.Outcome.next (s.raise_withPast past _)
  all_goals rfl

theorem processFrames_withPast (m : OpcodeMap) (fuel : Nat) (bytes : List Byte) (s : State) (past : Outputs) :
    processFrames m fuel bytes (s.withPast past) = outcomeWithPast past (processFrames m fuel bytes s) := by
  induction fuel generalizing bytes s with
  | zero => rfl
  | succ fuel ih =>
    simp only [processFrames]
    cases parseNext m bytes with
    | endOfChunk => rfl
    | incomplete op present => exact congrArg Host.Outcome.next (s.raise_withPast past _)
    | command i rest => exact andThen_withPast (exec_withPast i s past) (ih rest)

theorem processChunk_withPast (m : OpcodeMap) (chunk : List Byte) (s : State) (past : Outputs) :
    processChunk m chunk (s.withPast past) = outcomeWithPast past (processChunk m chunk s) :=
  processFrames_withPast m _ chunk s past

theorem receive_withPast (m : OpcodeMap) (rx : Option (List Byte)) (s : State) (past : Outputs) :
    receive m rx (s.withPast past) = outcomeWithPast past (receive m rx s) := by
  cases rx with
  | none => rfl
  | some chunk => exact processChunk_withPast m chunk s past

theorem iterate_withPast (m : OpcodeMap) (s : State) (past : Outputs) (inp : Input) :
    iterate m (s.withPast past) inp = outcomeWithPast past (iterate m s inp) := by
  cases hr : s.running with
  | false => rw [iterate_halted m hr, iterate_halted m (s := s.withPast past) hr]; rfl
  | true =>
    simp only [iterate, State.withPast_running, hr, if_true, State.capture_withPast]
    exact andThen_withPast (receive_withPast m inp.rx _ past)
      fun t => congrArg Host.Outcome.next (t.finishIteration_withPast past inp)

/-- An operation that commutes with a past appends to the output ports what it puts out from the silent state. -/
theorem next_from_silent {f : State → Host.Outcome State Fault Refusal} {s t : State}
    (hf : ∀ s past, f (s.withPast past) = outcomeWithPast past (f s)) (h : f s = .next t) :
    ∃ u, f s.silent = .next u ∧ t = u.withPast s.outputs := by
  have hs : s = s.silent.withPast s.outputs := by simp [State.outputs]
  rw [hs, hf, outcomeWithPast, andThen_eq_next] at h
  obtain ⟨u, hu, ht⟩ := h
  exact ⟨u, hu, (Host.Outcome.next.inj ht).symm⟩

/-! ### IDX and DIAG over a chunk of commands -/

/-- With `RESET_CLEARS_CAPTURE` unset no command writes IDX (R31, R171). -/
theorem exec_idx {i : Instr} {s t : State} (h : exec i s = .next t) (hc : s.resetClearsCapture = false) :
    t.idx = s.idx := by
  cases i <;> cases h
  case reset => simp [hc]
  case finishNow => simp [hc]
  case queryId => rw [State.emitTxAll_eq]
  case getMetadata => rw [State.emitTxAll_eq]
  all_goals rfl

/-- With `RESET_CLEARS_CAPTURE` unset no chunk writes IDX. -/
theorem processChunk_idx {m : OpcodeMap} {chunk : List Byte} {s t : State} (h : processChunk m chunk s = .next t)
    (hc : s.resetClearsCapture = false) : t.idx = s.idx := by
  obtain ⟨u, hu, hidx⟩ := processChunk_induct (m := m)
    (fun s t => s.resetClearsCapture = false → t.idx = s.idx) (fun _ _ => rfl) (fun _ _ _ _ _ _ => rfl)
    (fun i s t u hexec ih hc => (ih ((exec_frame hexec).resetClearsCapture.trans hc)).trans (exec_idx hexec hc)) chunk s
  rw [h] at hu
  cases hu
  exact hidx hc

/-- A chunk of commands keeps the fields no command writes. -/
theorem processChunk_frame {m : OpcodeMap} {chunk : List Byte} {s t : State} (h : processChunk m chunk s = .next t) :
    CommandFrame s t := by
  obtain ⟨u, hu, hf⟩ := receive_next m (some chunk) s
  rw [receive, h] at hu
  cases hu
  exact hf

/-- Every diagnostic there is after a command was there before or is one the core can report (R50). -/
theorem exec_diag_ok {i : Instr} {s t : State} (h : exec i s = .next t) : ∀ e ∈ t.diag, e ∈ s.diag ∨ e.ok := by
  have of_eq : t.diag = s.diag → ∀ e ∈ t.diag, e ∈ s.diag ∨ e.ok := fun hd e he => .inl (hd ▸ he)
  have of_raise {op : Byte} : t.diag = s.diag ++ [.unknownCommand op] → ∀ e ∈ t.diag, e ∈ s.diag ∨ e.ok := by
    intro hd e he
    rw [hd, List.mem_append, List.mem_singleton] at he
    exact he.imp_right (by rintro rfl; trivial)
  cases i <;> cases h
  case reset => exact of_eq (State.endSession_diag _ s)
  case finishNow => exact of_eq (State.endSession_diag _ s)
  case queryId => exact of_eq (by rw [State.emitTxAll_eq])
  case getMetadata => exact of_eq (by rw [State.emitTxAll_eq])
  case unknown => exact of_raise rfl
  case unknownLong => exact of_raise rfl
  all_goals exact of_eq rfl

/-- The same over the command phase, where a truncated frame may be reported too (R153). -/
theorem receive_diag_ok {m : OpcodeMap} {rx : Option (List Byte)} {s t : State} (h : receive m rx s = .next t) :
    ∀ e ∈ t.diag, e ∈ s.diag ∨ e.ok := by
  obtain ⟨u, hu, hdiag⟩ := receive_induct (m := m) (fun s t => ∀ e ∈ t.diag, e ∈ s.diag ∨ e.ok)
    (fun _ _ => .inl)
    (fun s op n hlong hn e he => by
      rw [State.raise_diag, List.mem_append, List.mem_singleton] at he
      exact he.imp_right (by rintro rfl; exact ⟨hlong, hn⟩))
    (fun i s t u hexec ih e he => (ih e he).elim (exec_diag_ok hexec e) .inr) rx s
  rw [h] at hu
  cases hu
  exact hdiag

/-! ### The invariant over the parts of an iteration -/

/-- Taking the input record keeps the invariant. -/
theorem State.Inv.consumeInput {s : State} (h : s.Inv) : s.consumeInput.Inv where
  bufWf := by simpa using h.bufWf
  ticksLt := by simpa using h.ticksLt
  tailsFull := by simpa using h.tailsFull
  diagOk := by simpa using h.diagOk

/-- Sub-steps 1 to 4 keep the invariant: RECORD keeps the canonical form, and TICKS, FRAMES and DIAG are not written. -/
theorem State.Inv.capture {s : State} (h : s.Inv) (raw : ChannelWord) : (s.capture raw).Inv where
  bufWf := by
    rw [State.capture_buf]
    exact State.record_wf h.bufWf _
  ticksLt := by simpa using h.ticksLt
  tailsFull := by simpa using h.tailsFull
  diagOk := by simpa using h.diagOk

/-- The command phase keeps the invariant: it writes DIAG alone of its four fields. -/
theorem State.Inv.receive {m : OpcodeMap} {rx : Option (List Byte)} {s t : State} (h : s.Inv)
    (hr : receive m rx s = .next t) (hf : CommandFrame s t) : t.Inv where
  bufWf := hf.buf ▸ h.bufWf
  ticksLt := hf.ticks ▸ h.ticksLt
  tailsFull := hf.frames ▸ h.tailsFull
  diagOk := fun e he => (receive_diag_ok hr e he).elim (h.diagOk e) id

/-- The tick and the keys keep the invariant: TICKS goes back to 0 at PERIOD_TICKS, and a new frame has the tail's length. -/
theorem State.Inv.finishIteration {s : State} (h : s.Inv) (inp : Input) : (s.finishIteration inp).Inv := by
  rw [State.finishIteration_eq]
  refine ⟨h.bufWf, ?_, fun f hf => ?_, h.diagOk⟩
  · have hlt : s.ticks < periodTicks := h.ticksLt
    dsimp only
    split_ifs <;> omega
  · rcases List.mem_append.mp hf with hf | hf
    · exact h.tailsFull f hf
    · split at hf
      · rw [List.mem_singleton.mp hf]
        exact State.tail_length s tailEntries
      · cases hf

/-- Every iteration keeps the invariant. -/
theorem State.Inv.iterate {m : OpcodeMap} {s t : State} {inp : Input} (h : s.Inv) (hit : iterate m s inp = .next t) :
    t.Inv := by
  obtain ⟨-, u, hu, hf, rfl⟩ := iterate_next hit
  exact ((h.capture inp.raw).receive hu hf).finishIteration inp

/-- No iteration writes the parameter `RESET_CLEARS_CAPTURE`. -/
theorem iterate_resetClearsCapture {m : OpcodeMap} {s t : State} {inp : Input} (h : iterate m s inp = .next t) :
    t.resetClearsCapture = s.resetClearsCapture := by
  obtain ⟨-, u, -, hf, rfl⟩ := iterate_next h
  rw [State.finishIteration_eq]
  exact hf.resetClearsCapture.trans (s.capture_resetClearsCapture inp.raw)

/-! ### The counts an iteration brings to its tick -/

/-- RECORD counts a word unlike the latest entry (R123). -/
theorem State.record_changes (s : State) (f : ChannelWord) :
    (s.record f).changes = if f ≠ s.current then s.changes + 1#32 else s.changes := by
  by_cases h : f = s.current
  · rw [State.record_of_eq h, if_neg (not_not.mpr h)]
  · rw [State.record_of_ne h, if_pos h]

/-- The tick and the keys write neither BUF nor IDX, so the tail read after them is the one the tick read. -/
theorem State.finishIteration_tail (s : State) (inp : Input) (n : Nat) : (s.finishIteration inp).tail n = s.tail n :=
  State.tail_congr (by rw [State.finishIteration_eq]) (by rw [State.finishIteration_eq]) n

end Sys2Proof.Machine

namespace Sys2Proof.Proofs

open Sys2Proof Sys2Proof.Machine Sys2Proof.Config

/-- Settles O50: taking the input record and every part of the iteration keep the invariant. -/
theorem everyStepKeepsTheInvariant : Obligations.EveryStepKeepsTheInvariant := by
  intro m s t hinv hstep
  exact ⟨hinv.consumeInput.iterate hstep,
    (iterate_resetClearsCapture hstep).trans s.consumeInput_resetClearsCapture⟩

/-- Settles O54: an iteration commutes with a past of its output ports, so what it puts out from the silent state is what it
appends to any other. -/
theorem outputsAreNeverReadBack : Obligations.OutputsAreNeverReadBack := by
  intro m s t tx diag frames inp h
  obtain ⟨u, hu, rfl⟩ := next_from_silent (f := fun s => iterate m s inp)
    (fun s past => iterate_withPast m s past inp) h
  refine ⟨u.tx, u.diag, u.frames, rfl, rfl, rfl, ?_⟩
  rw [← State.silent_withPast s ⟨tx, diag, frames⟩, iterate_withPast, hu]
  rfl

/-- Settles O24: the frame of the commands over the chunk; TX and DIAG grow because a chunk commutes with a past. -/
theorem noChunkWritesBufferOrCounters : Obligations.NoChunkWritesBufferOrCounters := by
  intro m chunk s t h
  have hf := processChunk_frame h
  obtain ⟨u, -, ht⟩ := next_from_silent (processChunk_withPast m chunk) h
  exact ⟨State.entry_congr hf.buf, hf.running, hf.samples, hf.changes, hf.ticks, hf.frames, hf.resetClearsCapture,
    processChunk_idx h, ⟨u.tx, by rw [ht]; rfl⟩, ⟨u.diag, by rw [ht]; rfl⟩⟩

/-- Settles O42: the tick reads the counts the capture sub-steps left, which no command writes, and the tail the iteration
leaves. -/
theorem oneTelemetryFramePerTick : Obligations.OneTelemetryFramePerTick := by
  intro m s t inp h
  obtain ⟨-, u, -, hf, rfl⟩ := iterate_next h
  have hsamples : u.samples = s.samples + 1#32 := hf.samples.trans (s.capture_samples inp.raw)
  have hchanges : u.changes = if s.filtered inp.raw ≠ s.current then s.changes + 1#32 else s.changes :=
    hf.changes.trans ((s.capture_changes inp.raw).trans (s.record_changes _))
  have hframes : u.frames = s.frames := hf.frames.trans (s.capture_frames inp.raw)
  rw [State.finishIteration_tail, State.finishIteration_eq]
  simp only [hsamples, hchanges, hframes, tailEntries]

/-- Settles O47: the reset buffer is empty, and an unlisted entry reads 0x00; the other values are those of R53's table. -/
theorem powerOnResetValues : Obligations.PowerOnResetValues := by
  have hentry (i : Index) : State.reset.entry i = 0x00#8 := by
    rw [State.entry, channelWordOf_eq]
    exact Memory.read_eq_unlisted (by simp [State.reset])
  exact ⟨hentry, rfl, rfl, rfl, rfl, rfl, rfl, rfl, rfl, rfl, rfl, rfl⟩

/-- Settles O48: a restart takes nothing from the state but the environment's fields and the parameter. -/
theorem noStateSurvivesRestart : Obligations.NoStateSurvivesRestart :=
  fun s _ => ⟨rfl, rfl, s.restart_armed, s.restart_enableMask, s.restart_invertMask⟩

/-- Settles O49. -/
theorem resetMeetsTheInvariant : Obligations.ResetMeetsTheInvariant where
  bufWf := Memory.nil_wf
  ticksLt := by decide
  tailsFull := by simp [State.reset]
  diagOk := by simp [State.reset]

end Sys2Proof.Proofs
end

section
/-! PROOFS. The statements of 20_memory.md: the capture buffer as a memory, what one iteration writes to it, the age order of its
entries, and the order of the bytes one iteration sends. -/

namespace Sys2Proof.Machine

open Sys2Proof Config

/-! ### The capture buffer as data -/

/-- An index that does not read as an unlisted one does is listed, with what it reads as. -/
theorem Memory.mem_of_read {m : Memory} {a : Nat} (h : Memory.read m a ≠ unlisted) : (a, Memory.read m a) ∈ m := by
  induction m with
  | nil => exact absurd rfl h
  | cons c rest ih =>
    by_cases hc : c.1 = a
    · subst hc
      simp [Memory.read]
    · rw [Memory.read, if_neg hc] at h ⊢
      exact List.mem_cons_of_mem _ (ih h)

/-- A canonical buffer lists exactly the entries that do not read as unlisted. -/
theorem Memory.mem_iff_read {m : Memory} (hm : Memory.wf m) {c : Host.Cell} :
    c ∈ m ↔ Memory.read m c.1 = c.2 ∧ c.2 ≠ unlisted := by
  constructor
  · exact fun hc => ⟨Memory.read_of_mem hm.1 hc, (hm.2 c hc).2⟩
  · rintro ⟨hread, hne⟩
    rw [← hread] at hne
    simpa [hread] using Memory.mem_of_read hne

/-- A canonical buffer lists no entry past the last index. -/
theorem Memory.read_out_of_range {m : Memory} (hm : Memory.wf m) {a : Nat} (ha : bufferEntries ≤ a) :
    Memory.read m a = unlisted := by
  by_contra h
  have hlt : a < bufferEntries := (hm.2 _ (Memory.mem_of_read h)).1
  omega

/-! ### What RECORD does to the buffer -/

/-- RECORD moves IDX to the next index for a word unlike the latest entry (R123). -/
theorem State.record_idx (s : State) (f : ChannelWord) :
    (s.record f).idx = if f ≠ s.current then s.idx + 1#8 else s.idx := by
  by_cases h : f = s.current
  · rw [State.record_of_eq h, if_neg (not_not.mpr h)]
  · rw [State.record_of_ne h, if_pos h]

/-- RECORD writes the entry after IDX, for a word unlike the latest entry, and no other (R68). -/
theorem State.record_entry {s : State} (hs : Memory.sorted s.buf) (f : ChannelWord) (j : Index) :
    (s.record f).entry j = if f ≠ s.current ∧ j = s.idx + 1#8 then f else s.entry j := by
  by_cases h : f = s.current
  · rw [State.record_of_eq h, if_neg fun hc => hc.1 h]
  · rw [State.record_of_ne h]
    by_cases hj : j = s.idx + 1#8
    · rw [if_pos ⟨h, hj⟩, hj]
      exact State.setEntry_entry_same hs _ f
    · rw [if_neg fun hc => hj hc.2]
      exact State.setEntry_entry_other s hj f

/-! ### What an iteration leaves of the buffer and IDX -/

/-- The session end leaves IDX alone, or `RESET_CLEARS_CAPTURE` is set and it puts IDX at 0 (R171). -/
theorem State.endSession_idx_cases (s : State) :
    (s.endSession s.resetClearsCapture).idx = s.idx ∨
      (s.resetClearsCapture = true ∧ (s.endSession s.resetClearsCapture).idx = 0#8) := by
  cases hc : s.resetClearsCapture with
  | false => exact .inl rfl
  | true => exact .inr ⟨rfl, rfl⟩

/-- A command leaves IDX alone, or `RESET_CLEARS_CAPTURE` is set and it puts IDX at 0 (R171, R172). -/
theorem exec_idx_cases {i : Instr} {s t : State} (h : exec i s = .next t) :
    t.idx = s.idx ∨ (s.resetClearsCapture = true ∧ t.idx = 0#8) := by
  cases i <;> cases h
  case reset => exact s.endSession_idx_cases
  case finishNow => exact s.endSession_idx_cases
  case queryId => exact .inl (by rw [State.emitTxAll_eq])
  case getMetadata => exact .inl (by rw [State.emitTxAll_eq])
  all_goals exact .inl rfl

/-- The same over the command phase. -/
theorem receive_idx_cases {m : OpcodeMap} {rx : Option (List Byte)} {s t : State} (h : receive m rx s = .next t) :
    t.idx = s.idx ∨ (s.resetClearsCapture = true ∧ t.idx = 0#8) := by
  obtain ⟨u, hu, hidx⟩ := receive_induct (m := m)
    (fun s t => t.idx = s.idx ∨ (s.resetClearsCapture = true ∧ t.idx = 0#8))
    (fun _ => .inl rfl) (fun _ _ _ _ _ => .inl rfl)
    (fun i s t u hexec ih => by
      rw [(exec_frame hexec).resetClearsCapture] at ih
      rcases ih with hsame | hzero
      · rw [hsame]
        exact exec_idx_cases hexec
      · exact .inr hzero) rx s
  rw [h] at hu
  cases hu
  exact hidx

/-- RECORD alone decides the buffer an iteration leaves (R68). -/
theorem iterate_buf {m : OpcodeMap} {s t : State} {inp : Input} (h : iterate m s inp = .next t) :
    t.buf = (s.record (s.filtered inp.raw)).buf := by
  obtain ⟨-, u, -, hf, rfl⟩ := iterate_next h
  rw [State.finishIteration_eq]
  exact hf.buf.trans (s.capture_buf inp.raw)

/-- RECORD decides the IDX an iteration leaves, unless `RESET_CLEARS_CAPTURE` is set and a command puts it at 0. -/
theorem iterate_idx_cases {m : OpcodeMap} {s t : State} {inp : Input} (h : iterate m s inp = .next t) :
    t.idx = (s.record (s.filtered inp.raw)).idx ∨ (s.resetClearsCapture = true ∧ t.idx = 0#8) := by
  obtain ⟨-, u, hu, -, rfl⟩ := iterate_next h
  rw [State.finishIteration_eq]
  simpa using receive_idx_cases hu

/-- RECORD decides the CHANGES an iteration leaves, unless its tick is the fifth of a period. -/
theorem iterate_changes {m : OpcodeMap} {s t : State} {inp : Input} (h : iterate m s inp = .next t)
    (htick : ¬ (inp.tick = true ∧ s.ticks + 1 = 5)) : t.changes = (s.record (s.filtered inp.raw)).changes := by
  obtain ⟨-, u, -, hf, rfl⟩ := iterate_next h
  have hticks : u.ticks = s.ticks := hf.ticks.trans (s.capture_ticks inp.raw)
  rw [State.finishIteration_eq]
  simp only [hticks, periodTicks, if_neg htick]
  exact hf.changes.trans (s.capture_changes inp.raw)

/-! ### Age order of the stored words (R70) -/

/-- The age order is read from BUF and IDX alone. -/
theorem State.Aged.congr {s t : State} {words : List ChannelWord} (h : s.Aged words) (hb : t.buf = s.buf)
    (hi : t.idx = s.idx) : t.Aged words := by
  obtain ⟨hne, hidx, hentry⟩ := h
  refine ⟨hne, hi.trans hidx, fun j hj => ?_⟩
  rw [State.entry_congr hb, hi]
  exact hentry j hj

/-- The newest stored word is the latest entry. -/
theorem State.Aged.head? {s : State} {words : List ChannelWord} (h : s.Aged words) : words.head? = some s.current := by
  obtain ⟨hne, -, hentry⟩ := h
  obtain ⟨w, ws, rfl⟩ := List.exists_cons_of_ne_nil hne
  have hzero : s.idx - BitVec.ofNat indexWidth 0 = s.idx := BitVec.sub_zero s.idx
  have hnewest := hentry 0 (by decide)
  rw [hzero] at hnewest
  exact congrArg some hnewest.symm

/-- One index further behind the next IDX is as far behind IDX. -/
theorem index_succ_sub_succ (i : BitVec 8) (j : Nat) :
    i + 1#8 - BitVec.ofNat 8 (j + 1) = i - BitVec.ofNat 8 j := by
  rw [BitVec.ofNat_add]
  exact add_sub_add_right_eq_sub i _ _

/-- No more than 254 indexes behind IDX is the next index met again. -/
theorem index_sub_ne_succ (i : BitVec 8) {j : Nat} (hj : j + 1 < 256) : i - BitVec.ofNat 8 j ≠ i + 1#8 := by
  bv_omega

/-- Storing a word makes it the newest: every stored word is one index further behind IDX, and the 256th falls out. -/
theorem State.Aged.record_of_ne {s : State} {words : List ChannelWord} (h : s.Aged words) (hs : Memory.sorted s.buf)
    {f : ChannelWord} (hf : f ≠ s.current) : (s.record f).Aged (f :: words) := by
  obtain ⟨hne, hidx, hentry⟩ := h
  have hnext : (s.record f).idx = s.idx + 1#8 := by rw [State.record_idx, if_pos hf]
  refine ⟨List.cons_ne_nil _ _, ?_, fun j hj => ?_⟩
  · rw [hnext, hidx, List.length_cons, Nat.add_sub_cancel, ← BitVec.ofNat_add,
      Nat.sub_add_cancel (List.length_pos_iff.mpr hne)]
  · rw [hnext, State.record_entry hs]
    cases j with
    | zero => rw [if_pos ⟨hf, BitVec.sub_zero _⟩, List.getD_cons_zero]
    | succ j =>
      rw [index_succ_sub_succ, if_neg fun hc => index_sub_ne_succ s.idx hj hc.2, List.getD_cons_succ]
      exact hentry j (Nat.lt_of_succ_lt hj)

/-- RECORD keeps the age order, with the word as the newest exactly when it differs from the newest. -/
theorem State.Aged.record {s : State} {words : List ChannelWord} (h : s.Aged words) (hs : Memory.sorted s.buf)
    (f : ChannelWord) : (s.record f).Aged (if some f = words.head? then words else f :: words) := by
  rw [h.head?]
  by_cases hf : f = s.current
  · rw [if_pos (congrArg some hf), State.record_of_eq hf]
    exact h
  · rw [if_neg fun hc => hf (Option.some.inj hc)]
    exact h.record_of_ne hs hf

/-! ### The bytes commands send depend on the commands alone (R170) -/

/-- The operation appends the same bytes to TX from every state it completes in. -/
def AppendsToTx (f : State → Host.Outcome State Fault Refusal) (bytes : List Byte) : Prop :=
  ∀ s t, f s = .next t → t.tx = s.tx ++ bytes

/-- An operation that always completes and leaves TX alone appends no byte. -/
theorem AppendsToTx.none {g : State → State} (h : ∀ s, (g s).tx = s.tx) : AppendsToTx (fun s => .next (g s)) [] := by
  rintro s t ⟨⟩
  rw [h, List.append_nil]

/-- Sending bytes appends them. -/
theorem AppendsToTx.emitTxAll (bytes : List Byte) : AppendsToTx (fun s => .next (s.emitTxAll bytes)) bytes := by
  rintro s t ⟨⟩
  rw [State.emitTxAll_eq]

/-- A sequence appends the bytes of its first part, then those of its second. -/
theorem AppendsToTx.andThen {f g : State → Host.Outcome State Fault Refusal} {bytes bytes' : List Byte}
    (hf : AppendsToTx f bytes) (hg : AppendsToTx g bytes') :
    AppendsToTx (fun s => andThen (f s) g) (bytes ++ bytes') := by
  intro s u h
  obtain ⟨t, hst, htu⟩ := andThen_eq_next.mp h
  rw [hg t u htu, hf s t hst, List.append_assoc]

/-- The response of a command. -/
def response : Instr → List Byte
  | .queryId _ => idString
  | .getMetadata _ => metadata
  | _ => []

/-- A command appends its response to TX in every state. -/
theorem exec_appendsToTx (i : Instr) : AppendsToTx (exec i) (response i) := by
  cases i
  case queryId => exact .emitTxAll idString
  case getMetadata => exact .emitTxAll metadata
  case reset => exact .none fun s => s.endSession_tx _
  case finishNow => exact .none fun s => s.endSession_tx _
  all_goals exact .none fun _ => rfl

/-- The frames left in a chunk append the responses of their commands, whatever the state. -/
theorem processFrames_appendsToTx (m : OpcodeMap) (fuel : Nat) (bytes : List Byte) :
    ∃ responses, AppendsToTx (processFrames m fuel bytes) responses := by
  induction fuel generalizing bytes with
  | zero => exact ⟨[], .none fun _ => rfl⟩
  | succ fuel ih =>
    simp only [processFrames]
    cases parseNext m bytes with
    | endOfChunk => exact ⟨[], .none fun _ => rfl⟩
    | incomplete op present => exact ⟨[], .none fun _ => rfl⟩
    | command i rest =>
      obtain ⟨responses, hrest⟩ := ih rest
      exact ⟨response i ++ responses, (exec_appendsToTx i).andThen hrest⟩

/-- The command phase appends bytes that its chunk alone decides. -/
theorem receive_appendsToTx (m : OpcodeMap) (rx : Option (List Byte)) :
    ∃ responses, AppendsToTx (receive m rx) responses := by
  cases rx with
  | none => exact ⟨[], .none fun _ => rfl⟩
  | some chunk => exact processFrames_appendsToTx m chunk.length chunk

/-- In sub-steps 1 to 4 STREAM sends the filtered word of the iteration, if the core is armed (R126, R127). -/
theorem State.capture_tx {s : State} (hs : Memory.sorted s.buf) (raw : ChannelWord) :
    (s.capture raw).tx = s.tx ++ if s.armed then [s.filtered raw] else [] := by
  rw [State.capture_eq]
  simp only [State.record_current hs]

/-- The tick and the keys send nothing. -/
@[simp] theorem State.finishIteration_tx (s : State) (inp : Input) : (s.finishIteration inp).tx = s.tx := by
  rw [State.finishIteration_eq]

end Sys2Proof.Machine

namespace Sys2Proof.Proofs

open Sys2Proof Sys2Proof.Machine Sys2Proof.Config

/-- Settles O52: every entry of the reset buffer is the baseline's 0x00, RECORD keeps the age order, and nothing after it in an
iteration writes BUF or, with the parameter unset, IDX. -/
theorem bufferHoldsTheLastStoredWords : Obligations.BufferHoldsTheLastStoredWords := by
  refine ⟨⟨List.cons_ne_nil _ _, rfl, fun j _ => ?_⟩, fun m s t inp words hinv hclears haged h => ?_⟩
  · cases j with
    | zero => rfl
    | succ j => rfl
  · have hidx : t.idx = (s.record (s.filtered inp.raw)).idx :=
      (iterate_idx_cases h).resolve_right fun hset => by simp [hclears] at hset
    exact (haged.record hinv.bufWf.1 _).congr (iterate_buf h) hidx

/-- Settles O25. -/
theorem bufferReadAfterWrite : Obligations.BufferReadAfterWrite := by
  intro mem i j v hmem
  refine ⟨?_, Memory.write_wf hmem (index_range i) v⟩
  by_cases hj : j = i
  · rw [if_pos hj, hj]
    exact Memory.read_write_same hmem.1 i.toNat v
  · rw [if_neg hj]
    exact Memory.read_write_other (fun h => hj (BitVec.eq_of_toNat_eq h)) v

/-- Settles O26: what a canonical buffer lists is decided by what it reads as, and the order of the listing by the indexes. -/
theorem bufferFormIsCanonical : Obligations.BufferFormIsCanonical := by
  intro a b ha hb hindex
  have hread (k : Nat) : Memory.read a k = Memory.read b k := by
    rcases Nat.lt_or_ge k bufferEntries with hk | hk
    · simpa [BitVec.toNat_ofNat, Nat.mod_eq_of_lt hk] using hindex (BitVec.ofNat indexWidth k)
    · rw [Memory.read_out_of_range ha hk, Memory.read_out_of_range hb hk]
  have : Std.Irrefl fun x y : Host.Cell => x.1 < y.1 := ⟨fun c => Nat.lt_irrefl c.1⟩
  have : Std.Antisymm fun x y : Host.Cell => x.1 < y.1 := ⟨fun _ _ h h' => absurd h' (Nat.lt_asymm h)⟩
  exact ha.1.eq_of_mem_iff hb.1 fun c => by
    rw [Memory.mem_iff_read ha, Memory.mem_iff_read hb, hread]

/-- Settles O40: RECORD is the only writer of BUF and, up to the two exceptions, of CHANGES and IDX. -/
theorem iterationWritesAtMostOneEntry : Obligations.IterationWritesAtMostOneEntry := by
  intro m s t inp hwf h
  refine ⟨fun j => ?_, fun htick => ?_, ?_⟩
  · rw [State.entry_congr (iterate_buf h)]
    exact State.record_entry hwf.1 _ j
  · exact (iterate_changes h htick).trans (s.record_changes _)
  · rw [← State.record_idx]
    exact iterate_idx_cases h

/-- Settles O43: STREAM sends its byte before the command phase, whose responses the chunk alone decides, and nothing after it
sends. -/
theorem streamByteComesBeforeResponses : Obligations.StreamByteComesBeforeResponses := by
  intro m rx
  obtain ⟨responses, hresponses⟩ := receive_appendsToTx m rx
  refine ⟨responses, ?_⟩
  rintro s t inp rfl hwf h
  obtain ⟨-, u, hu, -, rfl⟩ := iterate_next h
  calc (u.finishIteration inp).tx
      = u.tx := u.finishIteration_tx inp
    _ = (s.capture inp.raw).tx ++ responses := hresponses _ _ hu
    _ = s.tx ++ (if s.armed then [s.filtered inp.raw] else []) ++ responses := by
        rw [State.capture_tx hwf.1]

end Sys2Proof.Proofs
end

section
/-! PROOFS. The statements of 30_encoding.md: the argument and its four bytes, the frames the parser accepts, and the decoder and
the encoder as inverses of each other on the well-formed instructions. -/

namespace Sys2Proof

open Config

/-! ### The argument and its bytes (R93, R94) -/

/-- Each byte shifted in stands after those received before it. -/
theorem assembleArg_append (a3 a2 a1 a0 : Byte) : assembleArg [a3, a2, a1, a0] = a3 ++ a2 ++ a1 ++ a0 := by
  rw [assembleArg_eq, BitVec.zero_shiftLeft, BitVec.zero_or]
  simp only [← BitVec.setWidth_append_eq_shiftLeft_setWidth_or]
  exact BitVec.setWidth_eq (a3 ++ a2 ++ a1 ++ a0)

/-- The argument bytes as slices of the argument. -/
theorem wordBytes_extractLsb' (a : BitVec 32) :
    wordBytes a = [a.extractLsb' 24 8, a.extractLsb' 16 8, a.extractLsb' 8 8, a.extractLsb' 0 8] := rfl

/-- Assembling the bytes of an argument gives the argument: adjacent slices join. -/
theorem assembleArg_wordBytes (a : Word) : assembleArg (wordBytes a) = a := by
  rw [wordBytes_extractLsb', assembleArg_append]
  repeat rw [BitVec.extractLsb'_append_extractLsb'_eq_extractLsb' (by rfl)]
  exact BitVec.extractLsb'_eq_self

/-- A slice above the lowest byte does not see that byte. -/
theorem extractLsb'_add_append {v : Nat} (x : BitVec v) (b : Byte) (k : Nat) :
    (x ++ b).extractLsb' (k + 8) 8 = x.extractLsb' k 8 := by
  rw [BitVec.extractLsb'_append_eq_of_le (Nat.le_add_left 8 k), Nat.add_sub_cancel]

/-- The slices of four joined bytes are those bytes. -/
theorem extractLsb'_append_bytes (a3 a2 a1 a0 : Byte) :
    [(a3 ++ a2 ++ a1 ++ a0).extractLsb' 24 8, (a3 ++ a2 ++ a1 ++ a0).extractLsb' 16 8,
      (a3 ++ a2 ++ a1 ++ a0).extractLsb' 8 8, (a3 ++ a2 ++ a1 ++ a0).extractLsb' 0 8] = [a3, a2, a1, a0] := by
  repeat rw [extractLsb'_add_append]
  simp only [BitVec.extractLsb'_append_eq_right, BitVec.extractLsb'_eq_self]

/-- The bytes of an assembled argument are those it was assembled from. -/
theorem wordBytes_assembleArg (a3 a2 a1 a0 : Byte) : wordBytes (assembleArg [a3, a2, a1, a0]) = [a3, a2, a1, a0] := by
  rw [assembleArg_append]
  exact (wordBytes_extractLsb' _).trans (extractLsb'_append_bytes a3 a2 a1 a0)

/-- The mask operand is bits 31..24 of the argument. -/
theorem Machine.maskOperand_extractLsb' (a : BitVec 32) : maskOperand a = a.extractLsb' 24 8 := by
  rw [maskOperand_eq, BitVec.setWidth_and]
  exact BitVec.and_allOnes

theorem Machine.maskOperand_assembleArg (a3 a2 a1 a0 : Byte) : maskOperand (assembleArg [a3, a2, a1, a0]) = a3 := by
  have hbytes := wordBytes_assembleArg a3 a2 a1 a0
  rw [wordBytes_extractLsb', ← maskOperand_extractLsb'] at hbytes
  exact List.head_eq_of_cons_eq hbytes

/-- TRIGGER_MASK writes its mask operand to ENABLE_MASK (R174). -/
theorem Machine.exec_triggerMask (a : Word) (s : State) :
    exec (.triggerMask a) s = .next { s with enableMask := maskOperand a } := rfl

/-- TRIGGER_VALUES writes its mask operand to INVERT_MASK (R175). -/
theorem Machine.exec_triggerValues (a : Word) (s : State) :
    exec (.triggerValues a) s = .next { s with invertMask := maskOperand a } := rfl

/-! ### The frames the parser accepts (R90 to R92, R150 to R153) -/

@[simp] theorem argFits_none (op : Byte) : argFits op none = !isLong op := by simp [argFits]

@[simp] theorem argFits_some (op : Byte) (a : Word) : argFits op (some a) = isLong op := by simp [argFits]

/-- A frame is parsed as its opcode and its argument, and the bytes after it are left over. -/
theorem parseNext_frame (m : OpcodeMap) {op : Byte} {arg : Option Word} (h : argFits op arg = true) (rest : List Byte) :
    parseNext m (op :: arg.elim [] wordBytes ++ rest) = .command (decodeFrame m op arg) rest := by
  cases arg with
  | none => exact parseNext_short (by simpa using h) rest
  | some a =>
    calc parseNext m (op :: wordBytes a ++ rest)
        = .command (decodeFrame m op (some (assembleArg (wordBytes a)))) rest :=
          parseNext_long (by simpa using h) _ _ _ _ rest
      _ = .command (decodeFrame m op (some a)) rest := by rw [assembleArg_wordBytes]

/-- Bytes that are enough for the frame their opcode announces begin with a frame. -/
theorem exists_frame {op : Byte} {bytes : List Byte} (h : frameLength op ≤ (op :: bytes).length) :
    ∃ arg rest, argFits op arg = true ∧ op :: bytes = op :: arg.elim [] wordBytes ++ rest := by
  cases hlong : isLong op with
  | false => exact ⟨none, bytes, by simp [hlong], rfl⟩
  | true =>
    match bytes with
    | a3 :: a2 :: a1 :: a0 :: rest =>
      refine ⟨some (assembleArg [a3, a2, a1, a0]), rest, by simp [hlong], ?_⟩
      rw [Option.elim_some, wordBytes_assembleArg]
      rfl
    | [] | [_] | [_, _] | [_, _, _] => simp [frameLength, hlong, argBytes] at h

/-- A command is parsed from nothing but a frame. -/
theorem frame_of_parseNext {m : OpcodeMap} {bytes rest : List Byte} {i : Instr} (h : parseNext m bytes = .command i rest) :
    ∃ op arg, argFits op arg = true ∧ i = decodeFrame m op arg ∧ bytes = op :: arg.elim [] wordBytes ++ rest := by
  cases bytes with
  | nil => cases h
  | cons op bytes =>
    rcases Nat.lt_or_ge (op :: bytes).length (frameLength op) with hlt | hge
    · have hlong : isLong op = true := by
        by_contra hshort
        simp [frameLength, hshort] at hlt
      have hcut : bytes.length < argBytes := by simpa [frameLength, hlong, Nat.add_comm] using hlt
      rw [parseNext_truncated hlong hcut] at h
      cases h
    · obtain ⟨arg, rest', harg, hbytes⟩ := exists_frame hge
      rw [hbytes, parseNext_frame m harg] at h
      cases h
      exact ⟨op, arg, harg, rfl, hbytes⟩

/-! ### The decoder on one frame (R99, R101) -/

theorem decodeFrame_map {m : OpcodeMap} (hm : OpcodeMap.Legal m) (k : Mnemonic) (arg : Option Word) :
    decodeFrame m (m k) arg = commandOf k (m k) arg := by
  rw [decodeFrame, lookup_map hm]

theorem decodeFrame_of_lookup_eq_none {m : OpcodeMap} {op : Byte} (h : lookup m op = none) (arg : Option Word) :
    decodeFrame m op arg = unknownOf op arg := by
  rw [decodeFrame, h]

/-- A byte with bit 7 set has an argument in its frame. -/
theorem exists_arg_of_argFits {op : Byte} {arg : Option Word} (hop : isLong op = true) (h : argFits op arg = true) :
    ∃ a, arg = some a :=
  Option.isSome_iff_exists.mp (by simpa [argFits, hop] using h)

/-- A mnemonic's command on its own byte is well formed and keeps the opcode and the argument. -/
theorem commandOf_spec {m : OpcodeMap} (hm : OpcodeMap.Legal m) {k : Mnemonic} {arg : Option Word}
    (h : argFits (m k) arg = true) :
    (commandOf k (m k) arg).wfWith m = true ∧ (commandOf k (m k) arg).opcode m = m k ∧
      (commandOf k (m k) arg).arg = arg := by
  obtain ⟨-, hmask, hvalues⟩ := hm
  cases k
  case triggerMask =>
    obtain ⟨a, rfl⟩ := exists_arg_of_argFits hmask h
    exact ⟨hmask, rfl, rfl⟩
  case triggerValues =>
    obtain ⟨a, rfl⟩ := exists_arg_of_argFits hvalues h
    exact ⟨hvalues, rfl, rfl⟩
  all_goals exact ⟨h, rfl, rfl⟩

/-- An unknown opcode's instruction is well formed and keeps the opcode and the argument. -/
theorem unknownOf_spec {m : OpcodeMap} {op : Byte} {arg : Option Word} (hop : lookup m op = none)
    (h : argFits op arg = true) :
    (unknownOf op arg).wfWith m = true ∧ (unknownOf op arg).opcode m = op ∧ (unknownOf op arg).arg = arg := by
  cases arg with
  | none => exact ⟨by simpa [unknownOf, Instr.wfWith, hop] using h, rfl, rfl⟩
  | some a => exact ⟨by simpa [unknownOf, Instr.wfWith, hop] using h, rfl, rfl⟩

/-- What a frame decodes to is well formed and keeps the opcode and the argument of the frame. -/
theorem decodeFrame_spec {m : OpcodeMap} (hm : OpcodeMap.Legal m) {op : Byte} {arg : Option Word}
    (h : argFits op arg = true) :
    (decodeFrame m op arg).wfWith m = true ∧ (decodeFrame m op arg).opcode m = op ∧ (decodeFrame m op arg).arg = arg := by
  rw [decodeFrame]
  cases hk : lookup m op with
  | none => exact unknownOf_spec hk h
  | some k =>
    obtain rfl := map_of_lookup hk
    exact commandOf_spec hm h

/-- Encoding what a frame decodes to gives the frame back. -/
theorem encodeWith_decodeFrame {m : OpcodeMap} (hm : OpcodeMap.Legal m) {op : Byte} {arg : Option Word}
    (h : argFits op arg = true) : encodeWith m (decodeFrame m op arg) = op :: arg.elim [] wordBytes := by
  obtain ⟨-, hop, harg⟩ := decodeFrame_spec hm h
  rw [encodeWith, hop, harg]

/-- Every well-formed instruction is what some frame decodes to. -/
theorem exists_frame_of_wfWith {m : OpcodeMap} (hm : OpcodeMap.Legal m) {i : Instr} (h : i.wfWith m = true) :
    ∃ op arg, argFits op arg = true ∧ i = decodeFrame m op arg := by
  cases i
  case triggerMask a =>
    exact ⟨_, some a, by simpa [Instr.wfWith] using h, (decodeFrame_map hm .triggerMask (some a)).symm⟩
  case triggerValues a =>
    exact ⟨_, some a, by simpa [Instr.wfWith] using h, (decodeFrame_map hm .triggerValues (some a)).symm⟩
  case unknown op =>
    obtain ⟨hshort, hop⟩ : isLong op = false ∧ lookup m op = none := by simpa [Instr.wfWith] using h
    exact ⟨op, none, by simp [hshort], (decodeFrame_of_lookup_eq_none hop none).symm⟩
  case unknownLong op a =>
    obtain ⟨hlong, hop⟩ : isLong op = true ∧ lookup m op = none := by simpa [Instr.wfWith] using h
    exact ⟨op, some a, by simp [hlong], (decodeFrame_of_lookup_eq_none hop (some a)).symm⟩
  all_goals exact ⟨_, _, h, by rw [decodeFrame_map hm]; rfl⟩

end Sys2Proof

namespace Sys2Proof.Proofs

open Sys2Proof Sys2Proof.Machine Sys2Proof.Config

/-- Settles O1: a well-formed instruction is what some frame decodes to, that frame is its encoding, and the parser reads it. -/
theorem decodeOfEncodeGivesInstructionBack : Obligations.DecodeOfEncodeGivesInstructionBack := by
  intro m i rest hm hwf
  obtain ⟨op, arg, harg, rfl⟩ := exists_frame_of_wfWith hm hwf
  rw [encodeWith_decodeFrame hm harg]
  exact parseNext_frame m harg rest

/-- Settles O2: the parser accepts nothing but frames, and what a frame decodes to is well formed and encoded as that frame. -/
theorem encodeOfDecodeGivesBytesBack : Obligations.EncodeOfDecodeGivesBytesBack := by
  intro m bytes rest i hm h
  obtain ⟨op, arg, harg, rfl, hbytes⟩ := frame_of_parseNext h
  obtain ⟨hwf, -, -⟩ := decodeFrame_spec hm harg
  exact ⟨hwf, by rw [encodeWith_decodeFrame hm harg, hbytes]⟩

/-- Settles O4. -/
theorem argumentIsBigEndian : Obligations.ArgumentIsBigEndian := assembleArg_append

/-- Settles O6: outside the image the map's inverse finds nothing, and on a mnemonic's byte it finds that mnemonic. -/
theorem bytesOutsideTheMapAreUnknown : Obligations.BytesOutsideTheMapAreUnknown := by
  intro m op hm
  constructor
  · intro hout
    have hunknown := decodeFrame_of_lookup_eq_none (lookup_eq_none.mpr hout)
    exact ⟨hunknown none, fun a => hunknown (some a)⟩
  · rintro k rfl arg hlen
    have hfits : argFits (m k) arg = true := by simp [argFits, isLong, hlen]
    obtain ⟨-, hop, harg⟩ := decodeFrame_spec hm hfits
    exact ⟨decodeFrame_map hm k arg, hop, harg⟩

/-- Settles O18: the mask operand of an assembled argument is the first byte. -/
theorem maskOperandIsFirstArgumentByte : Obligations.MaskOperandIsFirstArgumentByte := by
  intro s a3 a2 a1 a0
  constructor
  · rw [exec_triggerMask, maskOperand_assembleArg]
  · rw [exec_triggerValues, maskOperand_assembleArg]

/-- Settles O5: bytes that are enough begin with a frame, which is parsed and is as long as bit 7 says. -/
theorem bitSevenAloneDecidesFrameLength : Obligations.BitSevenAloneDecidesFrameLength := by
  refine fun m op rest => ⟨rfl, fun hlen => ?_⟩
  obtain ⟨arg, left, harg, hbytes⟩ := exists_frame hlen
  refine ⟨decodeFrame m op arg, ?_⟩
  rw [hbytes, List.drop_left' (encodedLength_of_argFits harg)]
  exact parseNext_frame m harg left

end Sys2Proof.Proofs
end

section
/-! PROOFS. The statements of 40_capture.md: the filter's lanes, what RECORD, STREAM and TAIL do, the word an iteration leaves as the
latest entry, and the capture that ARMED never gates. -/

namespace Sys2Proof.Machine

open Sys2Proof Config

/-! ### ARMED and TX reach nothing else (R128)

States that differ in ARMED and TX alone are related; each part of an iteration takes related states to related states, and so then
does the iteration. -/

/-- The state with other values in ARMED and TX. -/
def State.withArmedTx (s : State) (armed : Bool) (tx : List Byte) : State := { s with armed := armed, tx := tx }

/-- The second state is the first up to ARMED and TX. -/
def SameButArmedTx (s s' : State) : Prop := ∃ armed tx, s' = s.withArmedTx armed tx

/-- The operation takes states that differ in ARMED and TX alone to such states, whenever it completes in both. -/
def IgnoresArmedTx (f : State → Host.Outcome State Fault Refusal) : Prop :=
  ∀ s s' t t', SameButArmedTx s s' → f s = .next t → f s' = .next t' → SameButArmedTx t t'

/-- For an operation that always completes it is enough to look at the states it ends in. -/
theorem IgnoresArmedTx.next {g : State → State}
    (h : ∀ (s : State) (armed : Bool) (tx : List Byte), SameButArmedTx (g s) (g (s.withArmedTx armed tx))) :
    IgnoresArmedTx fun s => .next (g s) := by
  rintro s _ _ _ ⟨armed, tx, rfl⟩ ⟨⟩ ⟨⟩
  exact h s armed tx

/-- A sequence ignores ARMED and TX when both its parts do. -/
theorem IgnoresArmedTx.andThen {f g : State → Host.Outcome State Fault Refusal} (hf : IgnoresArmedTx f)
    (hg : IgnoresArmedTx g) : IgnoresArmedTx fun s => andThen (f s) g := by
  intro s s' u u' hs h h'
  obtain ⟨t, hst, htu⟩ := andThen_eq_next.mp h
  obtain ⟨t', hst', htu'⟩ := andThen_eq_next.mp h'
  exact hg t t' u u' (hf s s' t t' hs hst hst') htu htu'

/-- RECORD reads BUF, IDX and CHANGES alone. -/
theorem State.record_withArmedTx (s : State) (armed : Bool) (tx : List Byte) (f : ChannelWord) :
    (s.withArmedTx armed tx).record f = (s.record f).withArmedTx armed tx := by
  by_cases h : f = s.current
  · rw [State.record_of_eq h, State.record_of_eq (s := s.withArmedTx armed tx) h]
  · rw [State.record_of_ne h, State.record_of_ne (s := s.withArmedTx armed tx) h]
    rfl

/-- Sub-steps 1 to 4 let ARMED reach TX alone, through STREAM. -/
theorem State.capture_sameButArmedTx (s : State) (armed : Bool) (tx : List Byte) (raw : ChannelWord) :
    SameButArmedTx (s.capture raw) ((s.withArmedTx armed tx).capture raw) := by
  rw [State.capture_eq, State.capture_eq, State.record_withArmedTx s armed tx]
  exact ⟨_, _, rfl⟩

/-- The tick reads neither field, and a TOGGLE among the keys (R203) writes ARMED alone from it. -/
theorem State.finishIteration_sameButArmedTx (s : State) (armed : Bool) (tx : List Byte) (inp : Input) :
    SameButArmedTx (s.finishIteration inp) ((s.withArmedTx armed tx).finishIteration inp) := by
  rw [State.finishIteration_eq, State.finishIteration_eq]
  exact ⟨_, _, rfl⟩

theorem State.endSession_sameButArmedTx (s : State) (armed : Bool) (tx : List Byte) (clears : Bool) :
    SameButArmedTx (s.endSession clears) ((s.withArmedTx armed tx).endSession clears) := by
  cases clears <;> exact ⟨_, _, rfl⟩

theorem State.emitTxAll_sameButArmedTx (s : State) (armed : Bool) (tx bytes : List Byte) :
    SameButArmedTx (s.emitTxAll bytes) ((s.withArmedTx armed tx).emitTxAll bytes) := by
  rw [State.emitTxAll_eq, State.emitTxAll_eq]
  exact ⟨_, _, rfl⟩

theorem exec_ignoresArmedTx (i : Instr) : IgnoresArmedTx (exec i) := by
  cases i
  case reset => exact .next fun s armed tx => s.endSession_sameButArmedTx armed tx _
  case finishNow => exact .next fun s armed tx => s.endSession_sameButArmedTx armed tx _
  case queryId => exact .next fun s armed tx => s.emitTxAll_sameButArmedTx armed tx idString
  case getMetadata => exact .next fun s armed tx => s.emitTxAll_sameButArmedTx armed tx metadata
  all_goals exact .next fun _ _ _ => ⟨_, _, rfl⟩

theorem processFrames_ignoresArmedTx (m : OpcodeMap) (fuel : Nat) (bytes : List Byte) :
    IgnoresArmedTx (processFrames m fuel bytes) := by
  induction fuel generalizing bytes with
  | zero => exact .next fun _ _ _ => ⟨_, _, rfl⟩
  | succ fuel ih =>
    simp only [processFrames]
    cases parseNext m bytes with
    | endOfChunk => exact .next fun _ _ _ => ⟨_, _, rfl⟩
    | incomplete op present => exact .next fun _ _ _ => ⟨_, _, rfl⟩
    | command i rest => exact (exec_ignoresArmedTx i).andThen (ih rest)

theorem receive_ignoresArmedTx (m : OpcodeMap) (rx : Option (List Byte)) : IgnoresArmedTx (receive m rx) := by
  cases rx with
  | none => exact .next fun _ _ _ => ⟨_, _, rfl⟩
  | some chunk => exact processFrames_ignoresArmedTx m chunk.length chunk

theorem iterate_ignoresArmedTx (m : OpcodeMap) (inp : Input) : IgnoresArmedTx fun s => iterate m s inp := by
  have hcapture : IgnoresArmedTx fun s => .next (s.capture inp.raw) :=
    .next fun s armed tx => s.capture_sameButArmedTx armed tx inp.raw
  have hfinish : IgnoresArmedTx fun s => .next (s.finishIteration inp) :=
    .next fun s armed tx => s.finishIteration_sameButArmedTx armed tx inp
  intro s s' t t' hs h h'
  obtain ⟨-, u, hu, -, rfl⟩ := iterate_next h
  obtain ⟨-, u', hu', -, rfl⟩ := iterate_next h'
  have hsub5 := receive_ignoresArmedTx m inp.rx _ _ u u' (hcapture s s' _ _ hs rfl rfl) hu hu'
  exact hfinish u u' _ _ hsub5 rfl rfl

/-! ### What an iteration leaves of IDX and SAMPLES -/

/-- With `RESET_CLEARS_CAPTURE` unset RECORD alone decides the IDX an iteration leaves. -/
theorem iterate_idx {m : OpcodeMap} {s t : State} {inp : Input} (h : iterate m s inp = .next t)
    (hclears : s.resetClearsCapture = false) : t.idx = (s.record (s.filtered inp.raw)).idx :=
  (iterate_idx_cases h).resolve_right fun hset => by simp [hclears] at hset

/-- An iteration counts one sample (R210), unless its tick is the fifth of a period. -/
theorem iterate_samples {m : OpcodeMap} {s t : State} {inp : Input} (h : iterate m s inp = .next t)
    (htick : ¬ (inp.tick = true ∧ s.ticks + 1 = 5)) : t.samples = s.samples + 1#32 := by
  obtain ⟨-, u, -, hf, rfl⟩ := iterate_next h
  have hticks : u.ticks = s.ticks := hf.ticks.trans (s.capture_ticks inp.raw)
  rw [State.finishIteration_eq]
  simp only [hticks, periodTicks, if_neg htick]
  exact hf.samples.trans (s.capture_samples inp.raw)

end Sys2Proof.Machine

namespace Sys2Proof.Proofs

open Sys2Proof Sys2Proof.Machine Sys2Proof.Config

/-- Settles O53: every part of an iteration ignores ARMED and TX but for the byte STREAM sends, the chunk alone decides the responses
after it, and what an iteration leaves of the capture does not look at ARMED. -/
theorem armedGatesTheStreamAlone : Obligations.ArmedGatesTheStreamAlone := by
  intro m s t t' armed tx inp hwf h h'
  obtain ⟨responses, hresponses⟩ := streamByteComesBeforeResponses m inp.rx
  have hsame : t' = { t with armed := t'.armed, tx := t'.tx } := by
    obtain ⟨_, _, rfl⟩ := iterate_ignoresArmedTx m inp s (s.withArmedTx armed tx) t t' ⟨armed, tx, rfl⟩ h h'
    rfl
  have htx := hresponses s t inp rfl hwf h
  have htx' := hresponses (s.withArmedTx armed tx) t' inp rfl hwf h'
  exact ⟨hsame, ⟨responses, htx, htx'⟩, iterate_buf h, iterate_idx h,
    fun htick => ⟨iterate_changes h htick, iterate_samples h htick⟩⟩

/-- Settles O28. -/
theorem recordStoresOnlyChanges : Obligations.RecordStoresOnlyChanges := by
  refine fun s f hwf => ⟨State.record_of_eq, fun hne => ⟨?_, ?_, fun j => ?_, ?_⟩⟩
  · rw [State.record_idx, if_pos hne]
  · rw [State.record_changes, if_pos hne]
  · simp only [State.record_entry hwf.1, hne, ne_eq, not_false_eq_true, true_and]
  · rw [State.record_of_ne hne]
    rfl

/-- Settles O30: STREAM sends the latest entry, which RECORD has made the filtered word. -/
theorem streamEmitsTheFilteredWord : Obligations.StreamEmitsTheFilteredWord := by
  refine fun s raw hwf => ⟨State.capture_tx hwf.1 raw, ?_⟩
  rw [State.capture_eq]

/-- Settles O39: RECORD makes the filtered word the latest entry, and no later sub-step writes BUF or, with the parameter unset,
IDX. -/
theorem latestEntryIsThisIterationsWord : Obligations.LatestEntryIsThisIterationsWord := by
  intro m s t inp hwf h
  have hrecorded := State.record_current hwf.1 (s.filtered inp.raw)
  exact ⟨hrecorded, iterate_buf h, fun hclears => ⟨iterate_idx h hclears,
    (State.current_congr (iterate_buf h) (iterate_idx h hclears)).trans hrecorded⟩⟩

/-- Settles O27: XOR and AND act on each bit by itself. -/
theorem filterWorksChannelByChannel : Obligations.FilterWorksChannelByChannel := by
  intro raw invert enable i
  refine ⟨rfl, ?_⟩
  rw [filterWord, BitVec.getLsbD_and, BitVec.getLsbD_xor, Bool.and_comm]

/-- Settles O29. -/
theorem tailCountsBackFromTheIndex : Obligations.TailCountsBackFromTheIndex := by
  refine fun s n _ _ => ⟨s.tail_length n, fun j hj => ?_⟩
  rw [State.tail, List.getElem?_map, List.getElem?_range hj, Option.map_some]

end Sys2Proof.Proofs
end

section
/-! PROOFS. The statements of 41_parser.md: the frames of a chunk in stream order, the frame the end of a chunk cuts short, and the
frame presented alone at the input port. -/

namespace Sys2Proof

open Config

/-! ### The format of a well-formed instruction's frame -/

/-- A well-formed instruction carries an argument exactly when its opcode has bit 7 set (R91, R92). -/
theorem argFits_of_wfWith {m : OpcodeMap} (hm : OpcodeMap.Legal m) {i : Instr} (h : i.wfWith m = true) :
    argFits (i.opcode m) i.arg = true := by
  obtain ⟨op, arg, hfits, rfl⟩ := exists_frame_of_wfWith hm h
  obtain ⟨-, hop, harg⟩ := decodeFrame_spec hm hfits
  rw [hop, harg]
  exact hfits

/-! ### The frame of a number of the opcode table -/

/-- A number's frame is no longer than bit 7 of its first byte allows (R92). -/
theorem exists_tableFrame_eq_cons (nbits w : Nat) :
    ∃ op bytes, tableFrame nbits w = op :: bytes ∧ (op :: bytes).length ≤ frameLength op := by
  have hcons : ∀ (op : Byte) (bytes : List Byte),
      (op :: bytes).take (frameLength op) = op :: bytes.take (frameLength op - 1) := by
    intro op bytes
    cases hlong : isLong op <;> simp [frameLength, hlong, Nat.add_comm 1]
  refine ⟨_, _, hcons _ _, ?_⟩
  rw [← hcons]
  exact List.length_take_le _ _

/-- A number that decodes to an instruction is that instruction's frame, with no byte after it. -/
theorem decode_tableFrame {nbits w : Nat} {i : Instr} (h : decodeTableWord nbits w = some i) :
    decode (tableFrame nbits w) = .command i [] := by
  unfold decodeTableWord at h
  split at h
  next j rest hparse =>
    cases h
    obtain ⟨op, arg, hfits, -, hbytes⟩ := frame_of_parseNext hparse
    obtain ⟨op', bytes, htable, hlen⟩ := exists_tableFrame_eq_cons nbits w
    have hframe : op' :: bytes = (op :: arg.elim [] wordBytes) ++ rest := htable.symm.trans hbytes
    obtain rfl : op' = op := List.head_eq_of_cons_eq hframe
    rw [hframe, List.length_append, encodedLength_of_argFits hfits] at hlen
    obtain rfl : rest = [] := List.length_eq_zero_iff.mp (by omega)
    exact hparse
  · cases h
  · cases h

end Sys2Proof

namespace Sys2Proof.Machine

open Sys2Proof Config

/-! ### Chunks of whole frames and the frame cut short (R150, R153) -/

theorem andThen_next_right (o : Host.Outcome State Fault Refusal) : andThen o .next = o := by cases o <;> rfl

/-- A chunk ends where its bytes end (R156). -/
theorem andThen_processChunk_nil (m : OpcodeMap) (o : Host.Outcome State Fault Refusal) :
    andThen o (processChunk m []) = o := by
  rw [funext (processChunk_nil m), andThen_next_right]

/-- A long frame cut short by the end of the chunk is reported, and its bytes are discarded. -/
theorem processChunk_truncated (m : OpcodeMap) {op : Byte} {part : List Byte} (hop : isLong op = true)
    (hpart : part.length < argBytes) (s : State) :
    processChunk m (op :: part) s = .next (s.raise (.incompleteArgument op part.length)) :=
  processChunk_incomplete (parseNext_truncated hop hpart) s

/-- The frames at the head of a chunk are dispatched in order, and the bytes after them are processed from the state they leave. -/
theorem processChunk_frames_append {m : OpcodeMap} (hm : OpcodeMap.Legal m) {is : List Instr}
    (hwf : ∀ i ∈ is, i.wfWith m = true) (rest : List Byte) (s : State) :
    processChunk m (is.flatMap (encodeWith m) ++ rest) s =
      andThen (is.foldl (fun o i => andThen o (exec i)) (.next s)) (processChunk m rest) := by
  induction is generalizing s with
  | nil => rfl
  | cons i is ih =>
    obtain ⟨hi, his⟩ := List.forall_mem_cons.mp hwf
    have hparse : parseNext m ((i :: is).flatMap (encodeWith m) ++ rest) =
        .command i (is.flatMap (encodeWith m) ++ rest) := by
      rw [List.flatMap_cons, List.append_assoc]
      exact Proofs.decodeOfEncodeGivesInstructionBack m i _ hm hi
    obtain ⟨t, ht, -⟩ := exec_next i s
    rw [processChunk_command hparse, List.foldl_cons, andThen_next, ht, andThen_next]
    exact ih his t

/-! ### The chunk presented at the input port (R231) -/

/-- A step of a running core on a presented chunk is sub-steps 1 to 4 and that chunk: no tick and no key comes with it. -/
theorem stepWith_presentChunk (m : OpcodeMap) {s : State} (h : s.running = true) (chunk : List Byte) :
    stepWith m (s.presentChunk chunk) = processChunk m chunk (s.capture (s.current ^^^ s.invertMask)) :=
  calc stepWith m (s.presentChunk chunk)
      = iterate m s ⟨s.current ^^^ s.invertMask, some chunk, false, []⟩ := rfl
    _ = andThen (processChunk m chunk (s.capture (s.current ^^^ s.invertMask))) .next := by
        rw [iterate, if_pos h]
        rfl
    _ = processChunk m chunk (s.capture (s.current ^^^ s.invertMask)) := andThen_next_right _

end Sys2Proof.Machine

namespace Sys2Proof.Proofs

open Sys2Proof Sys2Proof.Machine Sys2Proof.Config

/-- Settles O8: the frames run in order, and what is processed from there is nothing or the truncated frame. -/
theorem chunkRunsItsFramesInOrder : Obligations.ChunkRunsItsFramesInOrder := by
  intro m is s hm hwf
  have hframes := processChunk_frames_append hm hwf
  constructor
  · rw [← List.append_nil (is.flatMap (encodeWith m)), hframes, andThen_processChunk_nil]
  · intro op part hop hpart
    rw [hframes, funext (processChunk_truncated m hop hpart)]
    rfl

/-- Settles O10: the argument has four bytes, so the first part holds fewer than four of them after the opcode, and in the second
part fewer than four follow its first byte. -/
theorem splitFrameIsLost : Obligations.SplitFrameIsLost := by
  intro m i a k s hm hwf harg hk1 hk4
  obtain ⟨n, rfl⟩ := Nat.exists_eq_add_of_le' hk1
  have hfits := argFits_of_wfWith hm hwf
  rw [harg, argFits_some] at hfits
  have hencode : encodeWith m i = i.opcode m :: wordBytes a := by rw [encodeWith, harg, Option.elim_some]
  rw [hencode, List.take_succ_cons, List.drop_succ_cons]
  constructor
  · have hlen : ((wordBytes a).take n).length = n :=
      List.length_take_of_le (by rw [wordBytes_length]; exact Nat.le_of_lt hk4)
    have hcut := processChunk_truncated m hfits (hlen.trans_lt hk4) s
    rw [hlen] at hcut
    exact hcut
  · intro b rest hrest
    have hshort : rest.length < argBytes := by
      have hlen := congrArg List.length hrest
      rw [List.length_drop, wordBytes_length, List.length_cons] at hlen
      omega
    rw [hrest]
    split
    next hlong => exact processChunk_truncated m hlong hshort s
    next hclear => exact processChunk_command (parseNext_short (Bool.eq_false_of_not_eq_true hclear) rest) s

/-- Settles O36: the presented chunk is the frame of one instruction and nothing more. -/
theorem presentedFrameIsRunByTheNextStep : Obligations.PresentedFrameIsRunByTheNextStep := by
  intro s nbits w i hrunning hdecode
  rw [step, State.withFetchWord, stepWith_presentChunk opcodeMap hrunning, processChunk_command (decode_tableFrame hdecode),
    andThen_processChunk_nil]

/-- Settles O9. -/
theorem incompleteArgumentDiscardsTheChunk : Obligations.IncompleteArgumentDiscardsTheChunk :=
  fun m _ _ s hop hpart => processChunk_truncated m hop hpart s

/-- Settles O11. -/
theorem emptyChunkChangesNothing : Obligations.EmptyChunkChangesNothing :=
  fun m s => ⟨processChunk_nil m s, rfl⟩

end Sys2Proof.Proofs
end

section
/-! PROOFS. The statements of 42_commands.md: what each command writes, and that none of it depends on the state of the core. -/

namespace Sys2Proof.Machine

open Sys2Proof Config

/-! ### What each command answers, in terms of the state's operations (R171 to R185) -/

/-- RESET ends the session (R171). -/
theorem exec_reset (arg : Option Word) (s : State) :
    exec (.reset arg) s = .next (s.endSession s.resetClearsCapture) := rfl

/-- FINISH_NOW ends the session (R172). -/
theorem exec_finishNow (arg : Option Word) (s : State) :
    exec (.finishNow arg) s = .next (s.endSession s.resetClearsCapture) := rfl

/-- ARM sets ARMED (R173). -/
theorem exec_arm (arg : Option Word) (s : State) : exec (.arm arg) s = .next { s with armed := true } := rfl

/-- QUERY_ID appends the identification string to TX (R176). -/
theorem exec_queryId (arg : Option Word) (s : State) :
    exec (.queryId arg) s = .next { s with tx := s.tx ++ idString } :=
  congrArg Host.Outcome.next (s.emitTxAll_eq idString)

/-- GET_METADATA appends the metadata record to TX (R177). -/
theorem exec_getMetadata (arg : Option Word) (s : State) :
    exec (.getMetadata arg) s = .next { s with tx := s.tx ++ metadata } :=
  congrArg Host.Outcome.next (s.emitTxAll_eq metadata)

/-- UNKNOWN(op) in a short frame is reported on DIAG (R185). -/
theorem exec_unknown (op : Byte) (s : State) :
    exec (.unknown op) s = .next { s with diag := s.diag ++ [.unknownCommand op] } := rfl

/-- UNKNOWN(op) in a long frame is reported on DIAG, its argument discarded (R185). -/
theorem exec_unknownLong (op : Byte) (a : Word) (s : State) :
    exec (.unknownLong op a) s = .next { s with diag := s.diag ++ [.unknownCommand op] } := rfl

/-- With the parameter unset the session end clears ARMED alone (R171). -/
theorem State.endSession_of_keeps {s : State} (h : s.resetClearsCapture = false) :
    s.endSession s.resetClearsCapture = { s with armed := false } := congrArg s.endSession h

/-- With the parameter set it also puts IDX and the masks at their defaults (R171). -/
theorem State.endSession_of_clears {s : State} (h : s.resetClearsCapture = true) :
    s.endSession s.resetClearsCapture =
      { s with armed := false, idx := 0#8, enableMask := 0xFF#8, invertMask := 0x00#8 } := congrArg s.endSession h

/-! ### The two fixed responses (R12, R177) -/

theorem idString_length : idString.length = 4 := (List.length_map _).trans List.length_range

theorem metadata_length : metadata.length = 37 := (List.length_map _).trans List.length_range

/-- ID_STRING is ASCII: each of its bytes is a seven-bit character (R12). -/
theorem toNat_lt_of_mem_idString {b : Byte} (hb : b ∈ idString) : b.toNat < 128 := by
  obtain ⟨j, -, rfl⟩ := List.mem_map.mp hb
  calc ((idChar j).setWidth 8).toNat = (idChar j).toNat := BitVec.toNat_setWidth_of_le (by decide)
    _ < 128 := (idChar j).isLt

/-! ### A command's effect, chosen before the state (R170) -/

/-- What a command appends to the two streams and the values it gives the elements it writes; `none` leaves an element alone. -/
structure Effect where
  tx : List Byte := []
  diag : List DiagEvent := []
  armed : Option Bool := none
  enableMask : Option ChannelWord := none
  invertMask : Option ChannelWord := none
  idx : Option Index := none

/-- The state an effect leaves. -/
def Effect.apply (e : Effect) (s : State) : State :=
  { s with
    tx := s.tx ++ e.tx
    diag := s.diag ++ e.diag
    armed := e.armed.getD s.armed
    enableMask := e.enableMask.getD s.enableMask
    invertMask := e.invertMask.getD s.invertMask
    idx := e.idx.getD s.idx }

/-- The session end of R171 under each value of `RESET_CLEARS_CAPTURE`. -/
def Effect.sessionEnd : Bool → Effect
  | false => { armed := some false }
  | true =>
    { armed := some false, enableMask := some enableDefault, invertMask := some invertDefault, idx := some 0#indexWidth }

/-- The effect of each command under a value of `RESET_CLEARS_CAPTURE`. -/
def effect (clears : Bool) : Instr → Effect
  | .reset _ | .finishNow _ => .sessionEnd clears
  | .arm _ => { armed := some true }
  | .triggerMask a => { enableMask := some (maskOperand a) }
  | .triggerValues a => { invertMask := some (maskOperand a) }
  | .queryId _ => { tx := idString }
  | .getMetadata _ => { tx := metadata }
  | .unknown op | .unknownLong op _ => { diag := [.unknownCommand op] }
  | .xon _ | .xoff _ | .setDivider _ | .triggerConfig _ | .setReadDelayCount _ | .setFlags _ | .selfTest _ => {}

/-- An effect that appends nothing writes session elements alone. -/
theorem Effect.apply_of_silent {e : Effect} (htx : e.tx = []) (hdiag : e.diag = []) (s : State) :
    e.apply s =
      { s with
        armed := e.armed.getD s.armed
        enableMask := e.enableMask.getD s.enableMask
        invertMask := e.invertMask.getD s.invertMask
        idx := e.idx.getD s.idx } := by
  simp only [Effect.apply, htx, hdiag, List.append_nil]

theorem Effect.sessionEnd_apply (clears : Bool) (s : State) :
    (Effect.sessionEnd clears).apply s = s.endSession clears := by
  cases clears <;> exact Effect.apply_of_silent rfl rfl s

/-- Every command completes with its effect, which is chosen before all of the state but the parameter. -/
theorem exec_eq_effect (i : Instr) (s : State) : exec i s = .next ((effect s.resetClearsCapture i).apply s) := by
  cases i
  case reset => rw [exec_reset, effect, Effect.sessionEnd_apply]
  case finishNow => rw [exec_finishNow, effect, Effect.sessionEnd_apply]
  case queryId => simp [exec_queryId, effect, Effect.apply]
  case getMetadata => simp [exec_getMetadata, effect, Effect.apply]
  case unknown => simp [exec_unknown, effect, Effect.apply]
  case unknownLong => simp [exec_unknownLong, effect, Effect.apply]
  -- The other commands append nothing.
  all_goals rw [effect, Effect.apply_of_silent] <;> rfl

end Sys2Proof.Machine

namespace Sys2Proof.Proofs

open Sys2Proof Sys2Proof.Machine

/-- Settles O23: the effect of the command under that value of the parameter. -/
theorem commandEffectIsTheSameInEveryState : Obligations.CommandEffectIsTheSameInEveryState := by
  intro i clears
  let e := effect clears i
  refine ⟨e.tx, e.diag, e.armed, e.enableMask, e.invertMask, e.idx, ?_⟩
  rintro s rfl
  exact exec_eq_effect i s

/-- Settles O13: the session end of both commands, at each value of the parameter. -/
theorem resetAndFinishNowEndTheSession : Obligations.ResetAndFinishNowEndTheSession := by
  intro s arg
  rw [exec_reset, exec_finishNow]
  constructor
  · intro hkeeps
    rw [State.endSession_of_keeps hkeeps]
    exact ⟨rfl, rfl⟩
  · intro hclears
    rw [State.endSession_of_clears hclears]
    exact ⟨rfl, rfl⟩

/-- Settles O15. -/
theorem armSetsArmed : Obligations.ArmSetsArmed := fun s arg => exec_arm arg s

/-- Settles O16: the mask operand is bits 31..24 of the argument. -/
theorem triggerMaskSetsEnableMask : Obligations.TriggerMaskSetsEnableMask := by
  intro s a
  rw [exec_triggerMask, maskOperand_extractLsb']

/-- Settles O17: the mask operand is bits 31..24 of the argument. -/
theorem triggerValuesSetsInvertMask : Obligations.TriggerValuesSetsInvertMask := by
  intro s a
  rw [exec_triggerValues, maskOperand_extractLsb']

/-- Settles O19: each byte of the string is a seven-bit character. -/
theorem queryIdEmitsTheIdString : Obligations.QueryIdEmitsTheIdString :=
  ⟨idString_length, fun _ => toNat_lt_of_mem_idString, fun s arg => exec_queryId arg s⟩

/-- Settles O20. -/
theorem getMetadataEmitsTheRecord : Obligations.GetMetadataEmitsTheRecord :=
  ⟨metadata_length, fun s arg => exec_getMetadata arg s⟩

/-- Settles O21: each stub's arm answers the state it is given. -/
theorem stubsChangeNothing : Obligations.StubsChangeNothing :=
  fun _ _ => ⟨rfl, rfl, rfl, rfl, rfl, rfl, rfl⟩

/-- Settles O22: both frame lengths are reported alike. -/
theorem unknownCommandIsReportedAndIgnored : Obligations.UnknownCommandIsReportedAndIgnored :=
  fun s op a => ⟨exec_unknown op s, exec_unknownLong op a s⟩

end Sys2Proof.Proofs
end

section
/-! PROOFS. The statements of 43_session_telemetry.md: the session flag, the key events, the telemetry tick and the two counters. -/

namespace Sys2Proof.Machine

open Sys2Proof Config

/-! ### What a command leaves of ARMED (R201) -/

/-- A command leaves ARMED at the value its effect gives it, if it gives one. -/
theorem exec_armed {i : Instr} {s t : State} (h : exec i s = .next t) :
    t.armed = (effect s.resetClearsCapture i).armed.getD s.armed := by
  rw [exec_eq_effect] at h
  cases h
  rfl

/-- The session end gives ARMED the value false whatever the parameter (R171). -/
theorem Effect.sessionEnd_armed (clears : Bool) : (Effect.sessionEnd clears).armed = some false := by
  cases clears <;> rfl

/-! ### What an iteration leaves of RUNNING, TICKS and the counters -/

/-- An iteration leaves RUNNING true unless a QUIT is among its keys: no command, and no tick, writes it (R204). -/
theorem iterate_running_eq {m : OpcodeMap} {s t : State} {inp : Input} (h : iterate m s inp = .next t) :
    t.running = !inp.keys.contains .quit := by
  obtain ⟨hrunning, u, -, hf, rfl⟩ := iterate_next h
  have hu : u.running = true := hf.running.trans ((s.capture_running inp.raw).trans hrunning)
  rw [State.finishIteration_eq]
  simp only [hu, Bool.true_and]

/-- Sub-step 6 alone writes TICKS (R211, R212). -/
theorem iterate_ticks {m : OpcodeMap} {s t : State} {inp : Input} (h : iterate m s inp = .next t) :
    t.ticks = if inp.tick = true ∧ s.ticks + 1 = 5 then 0 else if inp.tick then s.ticks + 1 else s.ticks := by
  obtain ⟨-, u, -, hf, rfl⟩ := iterate_next h
  have hticks : u.ticks = s.ticks := hf.ticks.trans (s.capture_ticks inp.raw)
  rw [State.finishIteration_eq]
  cases inp.tick <;> simp [hticks, periodTicks]

/-- The fifth tick of a period leaves both counters at 0 (R212). -/
theorem iterate_counters_of_fifthTick {m : OpcodeMap} {s t : State} {inp : Input} (h : iterate m s inp = .next t)
    (htick : inp.tick = true ∧ s.ticks + 1 = 5) : t.samples = 0#32 ∧ t.changes = 0#32 := by
  obtain ⟨-, u, -, hf, rfl⟩ := iterate_next h
  have hticks : u.ticks = s.ticks := hf.ticks.trans (s.capture_ticks inp.raw)
  rw [State.finishIteration_eq]
  simp only [hticks, periodTicks, if_pos htick, and_self]

/-! ### Counts below their wrap (R37, R38) -/

theorem le_add_one_of_ne_max {a b : BitVec 32} (h : a ≤ b) (hb : b ≠ 0xFFFFFFFF#32) : a ≤ b + 1#32 := by
  bv_omega

theorem add_one_le_add_one_of_ne_max {a b : BitVec 32} (h : a ≤ b) (hb : b ≠ 0xFFFFFFFF#32) :
    a + 1#32 ≤ b + 1#32 := by
  bv_omega

end Sys2Proof.Machine

namespace Sys2Proof.Proofs

open Sys2Proof Sys2Proof.Machine

/-- Settles O32: ARMED is exclusive-ored with the parity of the TOGGLEs, and RUNNING is kept unless a QUIT is in the list. -/
theorem keyEventListFlipsArmedByParity : Obligations.KeyEventListFlipsArmedByParity := by
  intro s keys
  have harmed : (s.armed ^^ decide (keys.count .toggle % 2 = 1)) =
      if keys.count .toggle % 2 = 1 then !s.armed else s.armed := by
    split <;> simp [*]
  have hrunning : (s.running && !keys.contains .quit) = if .quit ∈ keys then false else s.running := by
    split <;> simp [*]
  rw [State.keyEvents_eq, harmed, hrunning]

/-- Settles O38: only a running core has an iteration, and only its keys write RUNNING. -/
theorem onlyQuitHaltsTheCore : Obligations.OnlyQuitHaltsTheCore := by
  intro m s t inp h
  rw [iterate_running_eq h, Bool.not_eq_true', ← Bool.not_eq_true, List.contains_iff_mem]

/-- Settles O41: at the fifth tick and in every other iteration, counter by counter. -/
theorem onlyTheFifthTickClearsTheCounters : Obligations.OnlyTheFifthTickClearsTheCounters := by
  intro m s t inp h
  split
  case isTrue htick =>
    obtain ⟨hsamples, hchanges⟩ := iterate_counters_of_fifthTick h htick
    exact ⟨hsamples, hchanges, (iterate_ticks h).trans (if_pos htick)⟩
  case isFalse htick =>
    exact ⟨iterate_samples h htick, (iterate_changes h htick).trans (s.record_changes _),
      (iterate_ticks h).trans (if_neg htick)⟩

/-- Settles O51: the fifth tick leaves 0 and 0; any other iteration adds 1 to SAMPLES, which does not wrap, and at most 1 to
CHANGES. -/
theorem changesNeverExceedSamples : Obligations.ChangesNeverExceedSamples := by
  refine ⟨rfl, rfl, fun m s t inp hle hmax h => ?_⟩
  have hcounters := onlyTheFifthTickClearsTheCounters m s t inp h
  split at hcounters
  case isTrue =>
    obtain ⟨hsamples, hchanges, -⟩ := hcounters
    rw [hsamples, hchanges]
    exact BitVec.le_refl _
  case isFalse =>
    obtain ⟨hsamples, hchanges, -⟩ := hcounters
    rw [hsamples, hchanges]
    split
    · exact add_one_le_add_one_of_ne_max hle hmax
    · exact le_add_one_of_ne_max hle hmax

/-- Settles O31: each kind of key has its own arm. -/
theorem keyEventsWriteTheirFlag : Obligations.KeyEventsWriteTheirFlag := fun _ _ => ⟨rfl, rfl, rfl⟩

/-- Settles O33: the frame is appended first, and both branches of the period keep it. -/
theorem telemetryTickEmitsThenResets : Obligations.TelemetryTickEmitsThenResets := by
  intro s
  rw [State.telemetryTick_eq]
  by_cases h : s.ticks + 1 = 5 <;> simp [h, Config.periodTicks, Config.tailEntries]

/-- Settles O34: the commands through their effects, a frame cut short through its report, which writes DIAG alone. -/
theorem sessionTransitionTable : Obligations.SessionTransitionTable := by
  intro s raw code
  refine ⟨fun i t h => ?_, rfl, rfl, rfl, s.capture_armed raw, ?_, fun m op part hop hpart => ?_⟩
  · have harmed := exec_armed h
    cases i
    case reset => rw [harmed, effect, Effect.sessionEnd_armed, Option.getD_some]
    case finishNow => rw [harmed, effect, Effect.sessionEnd_armed, Option.getD_some]
    all_goals exact harmed
  · rw [State.telemetryTick_eq]
  · exact ⟨_, processChunk_truncated m hop hpart s, State.raise_armed s _⟩

end Sys2Proof.Proofs
end

section
/-! PROOFS. The statements of 44_iteration.md: when a step exists, the command it runs, and the one end of a run. -/

namespace Sys2Proof.Machine

open Sys2Proof Config

/-! ### The input port over an iteration (R44)

A step takes one record from the port, and nothing in the iteration puts one back: so no step leads from a state to itself. -/

@[simp] theorem State.record_inputs (s : State) (f : ChannelWord) : (s.record f).inputs = s.inputs := by
  unfold State.record; split <;> rfl

@[simp] theorem State.record_drawn (s : State) (f : ChannelWord) : (s.record f).drawn = s.drawn := by
  unfold State.record; split <;> rfl

@[simp] theorem State.capture_inputs (s : State) (raw : ChannelWord) : (s.capture raw).inputs = s.inputs := by
  simp [State.capture_eq]

@[simp] theorem State.capture_drawn (s : State) (raw : ChannelWord) : (s.capture raw).drawn = s.drawn := by
  simp [State.capture_eq]

/-- No part of an iteration touches the input port. -/
theorem iterate_inputPort {m : OpcodeMap} {s t : State} {inp : Input} (h : iterate m s inp = .next t) :
    t.inputs = s.inputs ∧ t.drawn = s.drawn := by
  obtain ⟨-, u, -, hf, rfl⟩ := iterate_next h
  rw [State.finishIteration_eq]
  exact ⟨hf.inputs.trans (s.capture_inputs inp.raw), hf.drawn.trans (s.capture_drawn inp.raw)⟩

/-- Taking a record shortens the list of pending ones or, when there is none, counts a free one. -/
theorem State.consumeInput_inputPort (s : State) :
    s.consumeInput.inputs.length < s.inputs.length ∨ s.drawn < s.consumeInput.drawn := by
  unfold State.consumeInput
  split
  next inp later hinputs => exact .inl (by simp [hinputs])
  next => exact .inr (Nat.lt_succ_self _)

/-- A record pending at the head of the list is the one the iteration runs on. -/
theorem stepWith_of_inputs_cons (m : OpcodeMap) {s : State} {inp : Input} {later : List Input}
    (h : s.inputs = inp :: later) : stepWith m s = iterate m { s with inputs := later } inp := by
  simp only [stepWith, State.consumeInput, State.nextInput, h]

/-! ### When a step exists (R230, R234) -/

theorem stepWith_running (m : OpcodeMap) {s : State} (h : s.running = true) : ∃ t, stepWith m s = .next t :=
  iterate_running m (s.consumeInput_running.trans h) s.nextInput

theorem stepWith_halted (m : OpcodeMap) {s : State} (h : s.Halted) : stepWith m s = .fault .halted :=
  iterate_halted m (s.consumeInput_running.trans h) s.nextInput

theorem stepWith_eq_halted_iff (m : OpcodeMap) (s : State) : stepWith m s = .fault .halted ↔ s.Halted := by
  refine ⟨fun h => Bool.eq_false_of_not_eq_true fun hrunning => ?_, stepWith_halted m⟩
  obtain ⟨t, ht⟩ := stepWith_running m hrunning
  rw [ht] at h
  cases h

theorem stepWith_safe (m : OpcodeMap) (s : State) : Safe (stepWith m s) := by
  cases hrunning : s.running with
  | true => exact .inl (stepWith_running m hrunning)
  | false => exact .inr (stepWith_halted m hrunning)

/-- A step leads to another state: at least the input port has changed. -/
theorem ne_of_stepWith_eq_next {m : OpcodeMap} {s t : State} (h : stepWith m s = .next t) : t ≠ s := by
  obtain ⟨hinputs, hdrawn⟩ := iterate_inputPort h
  have hport := s.consumeInput_inputPort
  rw [← hinputs, ← hdrawn] at hport
  rintro rfl
  exact hport.elim (Nat.lt_irrefl _) (Nat.lt_irrefl _)

/-! ### Runs -/

/-- What holds at the start of a run and is kept by every step holds of every state the run reaches. -/
theorem Reaches.keeps {P : State → Prop} (hstep : ∀ t u, P t → step t = .next u → P u) {s t : State}
    (h : Reaches s t) (hs : P s) : P t := by
  induction h with
  | refl => exact hs
  | tail _ hnext ih => exact hstep _ _ ih hnext

/-- A run never leaves a halted state (R266). -/
theorem State.Halted.eq_of_reaches {t u : State} (ht : t.Halted) (h : Reaches t u) : u = t := by
  refine h.keeps (P := (· = t)) ?_ rfl
  rintro _ v rfl hnext
  rw [step, stepWith_halted opcodeMap ht] at hnext
  cases hnext

/-- A run leaves every state but a halted one. -/
theorem halted_iff_reaches_itself_alone (t : State) : t.Halted ↔ ∀ u, Reaches t u → u = t := by
  refine ⟨fun ht _ => ht.eq_of_reaches, fun hstays => Bool.eq_false_of_not_eq_true fun hrunning => ?_⟩
  obtain ⟨u, hu⟩ := stepWith_running opcodeMap hrunning
  exact ne_of_stepWith_eq_next hu (hstays u (.tail (.refl t) hu))

end Sys2Proof.Machine

namespace Sys2Proof.Proofs

open Sys2Proof Sys2Proof.Machine Sys2Proof.Config

/-- Settles O55: the invariant goes along the run, and a core with RUNNING true has a step, which changes the input port. -/
theorem theOnlyEndOfARunIsHalted : Obligations.TheOnlyEndOfARunIsHalted := by
  intro s t hinv hreach
  have hkept : ∀ u v : State, u.Inv → step u = .next v → v.Inv :=
    fun u v hu hnext => (everyStepKeepsTheInvariant opcodeMap u v hu hnext).1
  exact ⟨hreach.keeps hkept hinv, stepWith_safe opcodeMap t, stepWith_eq_halted_iff opcodeMap t,
    halted_iff_reaches_itself_alone t⟩

/-- Settles O37. -/
theorem stepCompletesExactlyWhileRunning : Obligations.StepCompletesExactlyWhileRunning :=
  fun m s inp => ⟨fun h => iterate_running m h inp, fun h => iterate_halted m h inp, rfl, s.consumeInput_running⟩

/-- Settles O35: the chunk of the pending record begins with the command's frame. -/
theorem stepRunsTheDecodedCommand : Obligations.StepRunsTheDecodedCommand := by
  intro s inp later bytes rest i hrunning hinputs hrx hdecode
  rw [step, stepWith_of_inputs_cons opcodeMap hinputs, iterate, if_pos hrunning, hrx, receive,
    processChunk_command hdecode, andThen_assoc]

end Sys2Proof.Proofs
end

section
/-! PROOFS. The statements of 70_reset_and_hazards.md: when a command begins to act, the transition a mask change records, the key
events that come after the commands, and the RESET command beside the power-on reset. -/

namespace Sys2Proof.Machine

open Sys2Proof Config

/-! ### The bytes one iteration sends (R291) -/

/-- In sub-steps 1 to 4 STREAM sends the entry RECORD has left as the latest, if the core is armed (R126). -/
theorem State.capture_tx_current (s : State) (raw : ChannelWord) :
    (s.capture raw).tx = s.tx ++ if s.armed then [(s.record (s.filtered raw)).current] else [] := by
  rw [State.capture_eq]

/-- An iteration sends STREAM's byte, if ARMED was set before it, and then the responses of its chunk. -/
theorem iterate_tx {m : OpcodeMap} {s t : State} {inp : Input} {responses : List Byte}
    (hresponses : AppendsToTx (receive m inp.rx) responses) (h : iterate m s inp = .next t) :
    t.tx = s.tx ++ (if s.armed then [(s.record (s.filtered inp.raw)).current] else []) ++ responses := by
  obtain ⟨-, u, hu, -, rfl⟩ := iterate_next h
  rw [State.finishIteration_tx, hresponses _ _ hu, State.capture_tx_current]

/-! ### Iterations whose chunk is one frame, or that have none -/

/-- A chunk that is the frame of one instruction runs that instruction. -/
theorem processChunk_encodeWith {m : OpcodeMap} (hm : OpcodeMap.Legal m) {i : Instr} (hi : i.wfWith m = true) (s : State) :
    processChunk m (encodeWith m i) s = exec i s := by
  have hparse := Proofs.decodeOfEncodeGivesInstructionBack m i [] hm hi
  rw [List.append_nil] at hparse
  rw [processChunk_command hparse, andThen_processChunk_nil]

/-- An iteration with such a chunk runs the instruction between sub-steps 1 to 4 and the tick (R231). -/
theorem iterate_encodeWith {m : OpcodeMap} (hm : OpcodeMap.Legal m) {i : Instr} (hi : i.wfWith m = true) {s t : State}
    {inp : Input} (hrx : inp.rx = some (encodeWith m i)) (h : iterate m s inp = .next t) :
    ∃ u, exec i (s.capture inp.raw) = .next u ∧ t = u.finishIteration inp := by
  obtain ⟨-, u, hu, -, rfl⟩ := iterate_next h
  rw [hrx, receive, processChunk_encodeWith hm hi] at hu
  exact ⟨u, hu, rfl⟩

/-- Without a tick and a key, sub-steps 6 and 7 change nothing. -/
theorem State.finishIteration_idle (s : State) (raw : ChannelWord) (rx : Option (List Byte)) :
    s.finishIteration ⟨raw, rx, false, []⟩ = s := rfl

/-- An iteration with a raw word and nothing else is sub-steps 1 to 4. -/
theorem iterate_idle {m : OpcodeMap} {s t : State} {raw : ChannelWord} (h : iterate m s ⟨raw, none, false, []⟩ = .next t) :
    t = s.capture raw := by
  obtain ⟨-, u, hu, -, ht⟩ := iterate_next h
  rw [ht, State.finishIteration_idle]
  exact (Host.Outcome.next.inj hu).symm

/-! ### The mask commands and the TOGGLE -/

/-- A mask command re-filters nothing: the latest entry stays (R174, R175). -/
theorem exec_maskCommand_current {i : Instr} {a : Word} (hi : i = .triggerMask a ∨ i = .triggerValues a) {s t : State}
    (h : exec i s = .next t) : t.current = s.current := by
  rcases hi with rfl | rfl <;> cases h <;> rfl

/-- A mask command is well formed under every legal map: its opcode has bit 7 set (R92). -/
theorem maskCommand_wfWith {m : OpcodeMap} (hm : OpcodeMap.Legal m) {i : Instr} {a : Word}
    (hi : i = .triggerMask a ∨ i = .triggerValues a) : i.wfWith m = true := by
  obtain ⟨-, hmask, hvalues⟩ := hm
  rcases hi with rfl | rfl
  · exact hmask
  · exact hvalues

/-- A lone TOGGLE flips the ARMED that the commands left (R203); the tick does not write it. -/
theorem State.finishIteration_toggle_armed (s : State) (raw : ChannelWord) (rx : Option (List Byte)) (tick : Bool) :
    (s.finishIteration ⟨raw, rx, tick, [.toggle]⟩).armed = !s.armed := by
  rw [State.finishIteration_eq]
  exact Bool.xor_true s.armed

end Sys2Proof.Machine

namespace Sys2Proof.Proofs

open Sys2Proof Sys2Proof.Machine Sys2Proof.Config

/-- Settles O44: RECORD alone decides BUF and, with the parameter unset, IDX; STREAM sends before the command phase, whose responses
are all that follows. -/
theorem commandsActFromTheNextIteration : Obligations.CommandsActFromTheNextIteration := by
  intro m s t t' inp inp' hraw h h'
  obtain ⟨responses, hresponses⟩ := receive_appendsToTx m inp.rx
  obtain ⟨responses', hresponses'⟩ := receive_appendsToTx m inp'.rx
  have hbuf' := iterate_buf h'
  have hidx' := iterate_idx h'
  have htx' := iterate_tx hresponses' h'
  rw [← hraw] at hbuf' hidx' htx'
  refine ⟨(iterate_buf h).trans hbuf'.symm, fun hclears => (iterate_idx h hclears).trans (hidx' hclears).symm,
    ⟨responses, iterate_tx hresponses h⟩, ⟨responses', htx'⟩, fun hrx => ?_⟩
  have hnone : AppendsToTx (receive m inp.rx) [] := by
    rw [hrx]
    exact .none fun _ => rfl
  exact (iterate_tx hnone h).trans (List.append_nil _)

/-- Settles O45: the latest entry is still the word under the old masks, and the next iteration's RECORD compares it with the word
under the new ones. -/
theorem maskChangeCanRecordTransition : Obligations.MaskChangeCanRecordTransition := by
  intro m s t u raw a i hm hwf hi ht hu
  have hexec : exec i (s.capture raw) = .next t := by
    obtain ⟨v, hexec, hv⟩ := iterate_encodeWith hm (maskCommand_wfWith hm hi) rfl ht
    rw [hv, State.finishIteration_idle]
    exact hexec
  have hcurrent : t.current = s.filtered raw :=
    (exec_maskCommand_current hi hexec).trans (State.capture_current hwf.1 raw)
  obtain rfl := iterate_idle hu
  refine ⟨hcurrent, ?_, ?_, ?_⟩
  · rintro rfl
    rw [exec_triggerMask] at hexec
    cases hexec
    exact ⟨maskOperand_extractLsb' a, s.capture_invertMask raw⟩
  · rintro rfl
    rw [exec_triggerValues] at hexec
    cases hexec
    exact ⟨maskOperand_extractLsb' a, s.capture_enableMask raw⟩
  · rw [State.capture_idx, State.capture_changes, ← hcurrent]
    split
    next hsame =>
      rw [State.record_of_eq (f := t.filtered raw) hsame]
      exact ⟨rfl, rfl⟩
    next hdiffers =>
      rw [State.record_of_ne (f := t.filtered raw) hdiffers]
      exact ⟨rfl, rfl⟩

/-- Settles O46: the TOGGLE flips the ARMED the command left, which is true after ARM and false after the other two. -/
theorem toggleRunsAfterTheCommands : Obligations.ToggleRunsAfterTheCommands := by
  intro m s t raw tick arg i hm hwf hi h
  obtain ⟨u, hexec, rfl⟩ := iterate_encodeWith hm hwf rfl h
  have harmed := exec_armed hexec
  rw [State.finishIteration_toggle_armed, harmed]
  rcases hi with rfl | rfl | rfl
  · simp [effect]
  · simp [effect, Effect.sessionEnd_armed]
  · simp [effect, Effect.sessionEnd_armed]

/-- Settles O14: the session end with the parameter unset; a restart is the reset state by definition. -/
theorem resetCommandIsNotPowerOnReset : Obligations.ResetCommandIsNotPowerOnReset := by
  refine ⟨rfl, fun s arg => ⟨fun hkeeps => ?_, rfl⟩⟩
  rw [exec_reset, State.endSession_of_keeps hkeeps]

end Sys2Proof.Proofs
end

section
/-! PROOFS. The default opcode map (R97, log entry 1) with the bytes it leaves unknown, frames written out under it, and the
diagnostic codes of 60_exceptions.md. -/

namespace Sys2Proof

open Config

/-! ### The default opcode map (R97, R100) -/

/-- The inverse of the default map undoes it, so no byte stands for two mnemonics. -/
theorem lookup_opcodeMap (k : Mnemonic) : lookup opcodeMap (opcodeMap k) = some k := by
  cases k <;> rfl

theorem opcodeMap_legal : OpcodeMap.Legal opcodeMap := by
  refine ⟨fun a b hab => ?_, rfl, rfl⟩
  have hinverse := congrArg (lookup opcodeMap) hab
  rwa [lookup_opcodeMap, lookup_opcodeMap, Option.some_inj] at hinverse

/-- The image of the default map, as the numbers of R97's table. -/
theorem lookup_opcodeMap_eq_none {op : Byte} :
    lookup opcodeMap op = none ↔
      op.toNat ∉ [0x00, 0x01, 0x02, 0x03, 0x04, 0x05, 0x11, 0x13, 0x80, 0x81, 0x82, 0xC0, 0xC1, 0xC2] := by
  calc lookup opcodeMap op = none
      ↔ op.toNat ∉ Mnemonic.all.map fun k => (opcodeMap k).toNat := by
        simp [lookup_eq_none, Mnemonic.mem_all, BitVec.toNat_inj]
    _ ↔ _ := Iff.rfl

/-! ### One frame under the default map (R90, R91) -/

theorem decode_short {op : Byte} (h : isLong op = false) :
    decode [op] = .command (decodeFrame opcodeMap op none) [] :=
  parseNext_short h []

theorem decode_long {op : Byte} (h : isLong op = true) (a3 a2 a1 a0 : Byte) :
    decode [op, a3, a2, a1, a0] = .command (decodeFrame opcodeMap op (some (a3 ++ a2 ++ a1 ++ a0))) [] := by
  rw [← assembleArg_append]
  exact parseNext_long h a3 a2 a1 a0 []

end Sys2Proof

namespace Sys2Proof.Proofs

open Sys2Proof Sys2Proof.Machine Sys2Proof.Config

/-- Settles O7: outside the table of R97 lie exactly the ranges of R100, and evaluation counts them in each half. -/
theorem defaultMapIsLegalWithTheListedUnknownBytes : Obligations.DefaultMapIsLegalWithTheListedUnknownBytes := by
  refine ⟨opcodeMap_legal, fun op => ?_, rfl, rfl⟩
  have hbound : op.toNat < 256 := op.isLt
  rw [lookup_opcodeMap_eq_none]
  simp only [List.mem_cons, List.not_mem_nil, or_false, BitVec.le_def, ← BitVec.toNat_inj, BitVec.toNat_ofNat]
  omega

/-- Settles O3: the frame's opcode is looked up in the table, and its argument is the four bytes joined. -/
theorem writtenFramesDecodeAsTabled : Obligations.WrittenFramesDecodeAsTabled :=
  ⟨decode_short rfl, decode_short rfl, decode_short rfl, decode_short rfl, decode_long rfl _ _ _ _, decode_long rfl _ _ _ _,
    decode_long rfl _ _ _ _, decode_short rfl, decode_long rfl _ _ _ _⟩

/-- Settles O12: each kind has one code, whatever it reports. -/
theorem diagnosticCodes : Obligations.DiagnosticCodes := fun _ _ => ⟨rfl, rfl⟩

end Sys2Proof.Proofs
end
